-- ==== Sys2Proof/Word.lean ====
section
/-! DEFINITION. The words of the DIM-link unit: bytes, u16 values, the fields of a frame, the decoded
Packet, the Frame, and the decoder's three states. Only types and two constants stand here. -/

namespace Sys2Proof

/-- A byte of either byte stream; bit 7 is the most significant (rules R11, R36). -/
abbrev Byte := BitVec 8

/-- A u16 (rule R11): what a channel holds, what a setpoint is. Nothing in the unit is signed. -/
abbrev U16 := BitVec 16

/-- The 3-bit channel address, 0 to 7 (rules R31, R47). -/
abbrev Channel := BitVec 3

/-- The 2-bit mode, 0 to 3 (rule R47). -/
abbrev Mode := BitVec 2

/-- The number of an ADC input, 0 to 2, for the addresses 4 to 6 (rules R32, R33). -/
abbrev Adc := Fin 3

/-- The address of a DAC output, 0 to 3 (rule R32): what an axis is, and what has an output at the DIM. -/
abbrev Dac := Fin 4

/-- `CMD_ADDR`: the command channel, address 7 (rules R8, R33). -/
def cmdAddr : Channel := 7#3

/-- A Packet (rule R11): the record a frame carries. -/
structure Packet where
  channel : Channel
  mode : Mode
  value : U16
deriving DecidableEq, Repr

/-- A Frame (rules R11, R47): exactly three bytes, in the order they travel on the wire. -/
structure Frame where
  byte0 : Byte
  byte1 : Byte
  byte2 : Byte
deriving DecidableEq, Repr

/-- The decoder's state with the bytes captured so far (rules R14, R15). -/
inductive RxState where
  /-- No byte is held; a byte0 is awaited. -/
  | awaitSync
  /-- byte0 is held. -/
  | haveFirst (b0 : Byte)
  /-- byte0 and byte1 are held. -/
  | haveSecond (b0 b1 : Byte)
deriving DecidableEq, Repr, Inhabited

/-- The fixed direction attribute of a channel address (rule R17). -/
inductive Direction where
  /-- `out`: a DAC output, addresses 0 to 3. -/
  | dacOut
  /-- `in`: an ADC input, addresses 4 to 6. -/
  | adcIn
  /-- `command`: the command channel, address 7. -/
  | command
deriving DecidableEq, Repr

end Sys2Proof
end

