-- ==== Sys2Proof/Config.lean ====
section
/-! DEFINITION. What an implementation fixes (the parameters of rule R8) and the free values: what the
spec leaves open about the DIM, each an opaque constant of which nothing can be proved. -/

namespace Sys2Proof

/-- `STEP_SIZE` (rule R8): a natural in 1 to 65535. The value 0 cannot be written (U8: refuse 0). -/
abbrev StepSize := { n : Nat // 1 ≤ n ∧ n ≤ 65535 }

/-- The parameters of the unit that the spec leaves open (rule R8, and U13 for the DIM's decoder).
They are constants of one machine: no step changes them. `N_ADDR`, the field widths, `FRAME_LEN` and
`CMD_ADDR` are fixed and stand in the types. -/
structure Params where
  /-- `STEP_SIZE`: the most one tick moves an axis. -/
  stepSize : StepSize
  /-- `AXES` as a subset of the DAC addresses: which of 0 to 3 are axes. -/
  isAxis : Vector Bool 4
  /-- `STRICT_CONT`: `false` is the lax reference decoder. -/
  strictCont : Bool
  /-- `RESET_SETPOINT[a]`; only the entries of axes mean anything. -/
  resetSetpoint : Vector U16 4
  /-- Whether the DIM's own decoder is the strict one (U13). -/
  dimStrict : Bool
deriving DecidableEq, Repr

/-- The values of rule R8 for this hardware: `STEP_SIZE` 255, `AXES` [0, 1], lax, setpoints 0; and the
lax decoder at the DIM (rule R108: "the same decoder as the unit"). -/
def Params.reference : Params where
  stepSize := ⟨255, by decide⟩
  isAxis := #v[true, true, false, false]
  strictCont := false
  resetSetpoint := #v[0#16, 0#16, 0#16, 0#16]
  dimStrict := false

/-- FREE VALUE (log entry 8, DESIGN CHOICE). The n-th drawn content of a far-end cell, where the spec leaves the
cell unconstrained (rules R113, R114, R115, R117). -/
opaque Config.freeEntry : Nat → Option U16

/-- FREE VALUE (log entry 8, DESIGN CHOICE). The n-th drawn content of the DIM's feedback mode (rule R115, U6). -/
opaque Config.freeFeedback : Nat → Nat

/-- FREE VALUE (log entries 8, 17, DESIGN CHOICE). The n-th drawn state of the DIM's decoder, where the
spec leaves the whole far-end state unconstrained (rules R114, R117, U3, U4). -/
opaque Config.freeRx : Nat → RxState

/-- FREE VALUE (log entry 8, DESIGN CHOICE). The n-th drawn mode field of an *Initialize* echo frame (rule R115, U5). -/
opaque Config.freeMode : Nat → Mode

/-- FREE VALUE (log entry 8, DESIGN CHOICE). The n-th drawn number that picks the order of the four echo frames of an
*Initialize* (rule R115, U5). -/
opaque Config.freeOrder : Nat → Nat

/-- FREE VALUE (log entry 9, DESIGN CHOICE). What the EEPROM holds for a DAC channel before any *Save* (U7). -/
opaque Config.factoryEeprom : Dac → U16

/-- FREE VALUE (log entry 9, DESIGN CHOICE). What a *Save* stores for a DAC channel, given the registers and the
outputs at that moment: which of the two the DIM stores, and how, is open (rule R116, U7). -/
opaque Config.savedValue : Vector (Option U16) 4 → Vector (Option U16) 4 → Dac → U16

end Sys2Proof
end

