-- ==== Sys2Proof/Syntax.lean ====
section
/-! DEFINITION. The instructions: the eight frame classes of rule R52, one constructor per row of
spec/opcode_table.json. Channel and mode together play the part of an opcode; the operands are the
channel (for the data classes) and the 16-bit value. -/

namespace Sys2Proof

/-- A frame class with its operands (rule R52). In the four data classes `ch` is 0 to 6
(`Instr.wf`); in the four command classes the channel is 7 and `v` is carried but means nothing
(rule R56). -/
inductive Instr where
  /-- `LOAD ch, v`: a data frame with mode 0. -/
  | load (ch : Channel) (v : U16)
  /-- `LOADUPD ch, v`: a data frame with mode 1. -/
  | loadUpd (ch : Channel) (v : U16)
  /-- `LOADALL ch, v`: a data frame with mode 2. -/
  | loadAll (ch : Channel) (v : U16)
  /-- `RSVD3 ch, v`: a data frame with mode 3, reserved (rule R53). -/
  | rsvd3 (ch : Channel) (v : U16)
  /-- `CMDINIT 7, v`: the command *Initialize*. -/
  | cmdInit (v : U16)
  /-- `CMDSAVE 7, v`: the command *Save*. -/
  | cmdSave (v : U16)
  /-- `CMDRSV2 7, v`: an unknown command, mode 2 (rule R54). -/
  | cmdRsv2 (v : U16)
  /-- `CMDRSV3 7, v`: an unknown command, mode 3 (rule R54). -/
  | cmdRsv3 (v : U16)
deriving DecidableEq, Repr

end Sys2Proof
end

