-- ==== Sys2Proof/WellFormed.lean ====
section
/-! DEFINITION. Which terms of Instr stand for a frame: the four data classes exclude the command
channel (rules R51, R52), everything else is unconstrained. -/

namespace Sys2Proof

/-- A data class takes the addresses 0 to 6; a command class takes every value (rules R52, R56). -/
def Instr.wf : Instr → Bool
  | .load ch _ => ch != cmdAddr
  | .loadUpd ch _ => ch != cmdAddr
  | .loadAll ch _ => ch != cmdAddr
  | .rsvd3 ch _ => ch != cmdAddr
  | .cmdInit _ => true
  | .cmdSave _ => true
  | .cmdRsv2 _ => true
  | .cmdRsv3 _ => true

end Sys2Proof
end

