-- ==== Sys2Proof/Decode.lean ====
section
/-! DEFINITION. The Packet Codec: field assembly in both directions (rules R49, R50), ENCODE (R61), the
byte-at-a-time decoder (R67 to R72), the eight frame classes (R52), and, built from them, the decoder and
the encoder of whole instructions. -/

namespace Sys2Proof

/-! ### Field assembly -/

/-- Bit 7 of a byte is clear: a sync byte, which may start a frame (rule R37). -/
def isSync (b : Byte) : Bool := !b.getLsbD 7

/-- The frame that carries a Packet (rule R49): `0_ccc_mm_dd 1_ddddddd 1_ddddddd`. -/
def encodePacket (p : Packet) : Frame where
  byte0 := 0#1 ++ p.channel ++ p.mode ++ p.value.extractLsb' 14 2
  byte1 := 1#1 ++ p.value.extractLsb' 7 7
  byte2 := 1#1 ++ p.value.extractLsb' 0 7

/-- The Packet read from three captured bytes (rule R50); bit 7 of byte1 and byte2 is not used. -/
def assemble (b0 b1 b2 : Byte) : Packet where
  channel := b0.extractLsb' 4 3
  mode := b0.extractLsb' 2 2
  value := b0.extractLsb' 0 2 ++ b1.extractLsb' 0 7 ++ b2.extractLsb' 0 7

/-- The fields of ENCODE and SEND after masking: value mod 2^16, channel mod 8, mode mod 4 (rule R61). -/
def maskFields (value channel mode : Nat) : Packet where
  channel := BitVec.ofNat 3 channel
  mode := BitVec.ofNat 2 mode
  value := BitVec.ofNat 16 value

/-- `ENCODE(value, channel, mode)` (rule R61), on naturals of any size. -/
def encodeFields (value channel mode : Nat) : Frame :=
  encodePacket (maskFields value channel mode)

/-- The three bytes of a frame in wire order (rules R11, R35). -/
def Frame.bytes (f : Frame) : List Byte := [f.byte0, f.byte1, f.byte2]

/-- The frame as the 24-bit word `F = byte0 ## byte1 ## byte2` (rule R47). -/
def Frame.word (f : Frame) : BitVec 24 := f.byte0 ++ f.byte1 ++ f.byte2

/-- The frame whose 24-bit word is `w`. -/
def Frame.ofWord (w : BitVec 24) : Frame where
  byte0 := w.extractLsb' 16 8
  byte1 := w.extractLsb' 8 8
  byte2 := w.extractLsb' 0 8

/-- A frame is well-formed when its marker bits are 0, 1, 1 (rule R48). -/
def Frame.wf (f : Frame) : Bool := isSync f.byte0 && !isSync f.byte1 && !isSync f.byte2

/-! ### The byte-at-a-time decoder -/

/-- `decode_step` (rules R68 to R72): the next decoder state and the Packet emitted, if any. With
`strict` a sync byte among the continuation bytes drops the partial frame and becomes the new byte0. -/
def decodeStep (strict : Bool) (rx : RxState) (b : Byte) : RxState × Option Packet :=
  match rx with
  | .awaitSync => if isSync b then (.haveFirst b, none) else (.awaitSync, none)
  | .haveFirst b0 => if strict && isSync b then (.haveFirst b, none) else (.haveSecond b0 b, none)
  | .haveSecond b0 b1 =>
    if strict && isSync b then (.haveFirst b, none) else (.awaitSync, some (assemble b0 b1 b))

/-- The decoder fed a list of bytes: the state it ends in and the Packets emitted, in order (rule R73). -/
def decodeRun (strict : Bool) (rx : RxState) : List Byte → RxState × List Packet
  | [] => (rx, [])
  | b :: bs =>
    let d := decodeStep strict rx b
    let r := decodeRun strict d.1 bs
    (r.1, d.2.toList ++ r.2)

/-! ### Frame classes and whole instructions -/

/-- The frame class of a Packet, with its operands (rules R52, R81). -/
def classify (p : Packet) : Instr :=
  if p.channel = cmdAddr then
    if p.mode = 0#2 then .cmdInit p.value
    else if p.mode = 1#2 then .cmdSave p.value
    else if p.mode = 2#2 then .cmdRsv2 p.value
    else .cmdRsv3 p.value
  else
    if p.mode = 0#2 then .load p.channel p.value
    else if p.mode = 1#2 then .loadUpd p.channel p.value
    else if p.mode = 2#2 then .loadAll p.channel p.value
    else .rsvd3 p.channel p.value

/-- The Packet an instruction stands for (rule R52). -/
def Instr.packet : Instr → Packet
  | .load ch v => { channel := ch, mode := 0#2, value := v }
  | .loadUpd ch v => { channel := ch, mode := 1#2, value := v }
  | .loadAll ch v => { channel := ch, mode := 2#2, value := v }
  | .rsvd3 ch v => { channel := ch, mode := 3#2, value := v }
  | .cmdInit v => { channel := cmdAddr, mode := 0#2, value := v }
  | .cmdSave v => { channel := cmdAddr, mode := 1#2, value := v }
  | .cmdRsv2 v => { channel := cmdAddr, mode := 2#2, value := v }
  | .cmdRsv3 v => { channel := cmdAddr, mode := 3#2, value := v }

/-- The pseudo-form `INIT`: `CMDINIT 7, 0x0000` (rule R59). -/
def Instr.pseudoInit : Instr := .cmdInit 0#16

/-- The pseudo-form `SAVE`: `CMDSAVE 7, 0x0000` (rule R59). -/
def Instr.pseudoSave : Instr := .cmdSave 0#16

/-- The canonical frame of an instruction (rule R52), its continuation markers set. -/
def encode (i : Instr) : Frame := encodePacket i.packet

/-- Why three bytes are not read as an instruction. No byte sequence is an error of the machine
(rule R55): these name what the byte-at-a-time decoder does instead. -/
inductive DecodeError where
  /-- Fewer than three bytes: the decoder holds a partial frame. -/
  | incomplete
  /-- The first byte is a continuation byte: discarded in `AwaitSync` (rule R68). -/
  | notSync (b : Byte)
  /-- Strict decoder only: byte1 or byte2 is a sync byte and restarts the frame (rule R72). -/
  | badContinuation
deriving DecidableEq, Repr

/-- Decoding at a frame boundary: the instruction the first three bytes hold, and the bytes after it. -/
def decodeWith (strict : Bool) : List Byte → Except DecodeError (Instr × List Byte)
  | b0 :: b1 :: b2 :: rest =>
    if !isSync b0 then .error (.notSync b0)
    else if strict && (isSync b1 || isSync b2) then .error .badContinuation
    else .ok (classify (assemble b0 b1 b2), rest)
  | _ => .error .incomplete

/-- The reference decoder, `STRICT_CONT = false` (rule R8). -/
def decode (bs : List Byte) : Except DecodeError (Instr × List Byte) := decodeWith false bs

/-- The bytes of a table word. spec/opcode_table.json numbers a row as ONE 24-bit word, bit 23 the most
significant bit of byte0 (rule R47), stored byte0 first (rule R35); bits from `nbits` up are 0. -/
def tableWordBytes (nbits w : Nat) : List Byte :=
  (Frame.ofWord (BitVec.ofNat 24 (w % 2 ^ nbits))).bytes

/-- The instruction the reference decoder reads from a table word. -/
def decodeTableWord (nbits w : Nat) : Option Instr :=
  match decode (tableWordBytes nbits w) with
  | .ok (i, _) => some i
  | .error _ => none

end Sys2Proof
end

