-- ==== Sys2Proof/Machine/State.lean ====
section
/-! DEFINITION. The state of the machine as plain data: the unit's elements (rule R13), the far end
(rule R108), the parameters (R8), and the operations the agents have issued (R10). -/

namespace Sys2Proof.Machine

/-- Why the machine stops with a fault. There is no reason: "Nothing in this core is fatal to the
process" (rule R119), so the type is empty. -/
inductive Fault
deriving DecidableEq, Repr

/-- Why a term has no meaning. None of these is reached by bytes on a stream or by an operation whose
arguments are of the types rule R10 states. -/
inductive Refusal where
  /-- Raised by `exec` for an instruction that has no meaning yet. No arm raises it. Safe. -/
  | notModelled (mnemonic : String)
  /-- Raised by the four data classes for a term with channel 7, which no frame encodes: a frame with
  channel 7 is a command (rules R51, R52). Safe (log entry 13, DESIGN CHOICE). -/
  | dataClassOnCommandChannel
  /-- Raised by SET_TARGET, MOVE_TICK and MOVE_TO_TARGET for an address outside `AXES`, which is not an
  argument of these operations (rules R94, R98, R103). Safe (log entry 14, DESIGN CHOICE). -/
  | notAnAxis
deriving DecidableEq, Repr

/-- The event kinds (rule R28). -/
inductive Event where
  /-- A Packet with a channel other than 7 was decoded. -/
  | chanUpdate (channel : Channel) (value : U16)
  /-- A frame was sent; the masked fields. -/
  | echo (value : U16) (channel : Channel) (mode : Mode)
  /-- *Initialize* was decoded or issued directly. -/
  | cmdInit
  /-- *Save* was decoded or issued directly. -/
  | cmdSave
deriving DecidableEq, Repr

/-- What an operation hands back to the agent that issued it (rule R12 `return`; log entry 2, DESIGN CHOICE). -/
inductive Result where
  /-- ENCODE: a frame (rule R61). -/
  | frame (f : Frame)
  /-- TBL_READ: the entry and its direction (rule R90). -/
  | entry (value : Option U16) (direction : Direction)
  /-- MOVE_TICK and MOVE_TO_TARGET: is an axis of the set still off target (rule R100). -/
  | moving (b : Bool)
deriving DecidableEq, Repr

/-- The operations (rule R10), and below them the steps of the line between the unit and the DIM, which
belong to the environment (rules R9, R118, U13; log entry 11, DESIGN CHOICE). -/
inductive Request where
  /-- ENCODE (rule R61). -/
  | encode (value channel mode : Nat)
  /-- SEND (rule R63). -/
  | send (value channel mode : Nat)
  /-- RX_BYTE (rule R67). -/
  | rxByte (b : Byte)
  /-- DRAIN (rule R73). -/
  | drain (bs : List Byte)
  /-- OP_INIT (rule R88). -/
  | opInit
  /-- OP_SAVE (rule R89). -/
  | opSave
  /-- TBL_READ (rule R90). -/
  | tblRead (c : Channel)
  /-- SET_TARGET (rule R94). -/
  | setTarget (a : Dac) (t : U16)
  /-- MOVE_TICK on the set of axes marked `true` (rule R98). -/
  | moveTick (axes : Vector Bool 4)
  /-- MOVE_TO_TARGET on the partial map from axes to targets (rule R103). -/
  | moveToTarget (targets : Vector (Option U16) 4)
  /-- LINK_SET (rule R122). -/
  | linkSet (up : Bool)
  /-- RESET (rule R133). -/
  | reset
  /-- The line passes the next `n` bytes of `tx_stream` to the DIM unchanged. -/
  | lineToDim (n : Nat)
  /-- The line loses the next byte of `tx_stream`. -/
  | lineLosesToDim
  /-- The line hands the DIM a byte of its own (noise, or in the place of a lost byte). -/
  | lineNoiseToDim (b : Byte)
  /-- Transport drains the next `n` bytes the DIM has sent into the unit. -/
  | lineToUnit (n : Nat)
  /-- The line loses the next byte the DIM has sent. -/
  | lineLosesToUnit
  /-- The DIM is powered up anew (rule R108; log entry 6, DESIGN CHOICE). -/
  | dimPowerUp
  /-- The DIM sends a reading of an ADC input; when, and with which mode and value, is open (rule R114, N14;
  log entry 11, DESIGN CHOICE). -/
  | dimReading (a : Adc) (mode : Mode) (value : U16)
  /-- The DIM sends any other bytes (rule R9: it "may produce bytes"; log entry 11, DESIGN CHOICE). -/
  | dimSends (bs : List Byte)
deriving DecidableEq, Repr

/-- The far end, the DIM (rule R108), with the two ends of the line it stands on. -/
structure FarEnd where
  /-- `fe_reg[c]`: the channel registers. -/
  reg : Vector (Option U16) 4
  /-- `fe_out[c]`: the values that drive the outputs. -/
  out : Vector (Option U16) 4
  /-- `fe_rx`: the DIM's own frame decoder. -/
  rx : RxState
  /-- `fe_eeprom`: what the last *Save* stored, `none` while there has been none (log entry 9, DESIGN CHOICE). -/
  eeprom : Vector (Option U16) 4
  /-- `fe_feedback`: opaque, any value (U6): a number without a meaning, always drawn (log entry 8, DESIGN
  CHOICE). -/
  feedback : Nat
  /-- The bytes the DIM has sent and the line has not yet delivered or lost, oldest first. -/
  sent : List Byte
  /-- How many bytes of `tx_stream` the line has passed or lost. -/
  taken : Nat
  /-- The counter of free values (log entry 8, DESIGN CHOICE). -/
  draws : Nat
deriving DecidableEq, Repr

/-- The state. The first eight fields are rule R13's elements. -/
structure State where
  /-- `rx_state` (rules R14, R15). -/
  rxState : RxState
  /-- `tbl[0..7]`, the Channel Table (rule R16). -/
  tbl : Vector (Option U16) 8
  /-- `last`, the fields of the most recent frame sent (rule R18). -/
  last : Option Packet
  /-- `current[a]` (rule R19); the cells of axes mean something (log entry 7, DESIGN CHOICE). -/
  current : Vector U16 4
  /-- `target[a]` (rule R19); the cells of axes mean something (log entry 7, DESIGN CHOICE). -/
  target : Vector U16 4
  /-- `link_up` (rule R21). -/
  linkUp : Bool
  /-- `tx_stream`, the bytes written since reset, oldest first (rule R22). -/
  txStream : List Byte
  /-- `events`, the notifications raised since reset, oldest first (rule R23). -/
  events : List Event
  /-- The results returned since reset, oldest first (log entry 2, DESIGN CHOICE). -/
  results : List Result
  /-- The parameters of rule R8, constants of the machine (log entry 3, DESIGN CHOICE). -/
  params : Params
  /-- The far end (rule R108). -/
  farEnd : FarEnd
  /-- The operations issued and not yet performed, in the order they are served (log entry 1, DESIGN CHOICE). -/
  requests : List Request
deriving DecidableEq, Repr

/-- The far end at its own power-up (rule R108; log entry 6, DESIGN CHOICE). The feedback mode is the first
free value drawn (U6). -/
def FarEnd.powerUp : FarEnd where
  reg := #v[none, none, none, none]
  out := #v[none, none, none, none]
  rx := .awaitSync
  eeprom := #v[none, none, none, none]
  feedback := Config.freeFeedback 0
  sent := []
  taken := 0
  draws := 1

/-- The state after power-on of a machine with these parameters (rules R29, R134). -/
def State.powerOn (p : Params) : State where
  rxState := .awaitSync
  tbl := #v[none, none, none, none, none, none, none, none]
  last := none
  current := p.resetSetpoint
  target := p.resetSetpoint
  linkUp := false
  txStream := []
  events := []
  results := []
  params := p
  farEnd := FarEnd.powerUp
  requests := []

/-- The machine right after reset, with the reference parameters (rules R8, R29). -/
def State.reset : State := State.powerOn Params.reference

end Sys2Proof.Machine
end

