-- ==== Sys2Proof/Machine/Ops.lean ====
section
/-! DEFINITION. The named operations on the state: the primitives of rule R12, the Channel Table, the
shared sending of one frame, and the chaining of outcomes. There is no operation for taking an
exception or returning from one: rules R119, R127 and R128 say that the unit has neither. -/

namespace Sys2Proof.Machine

/-- What a step or a meaning answers. -/
abbrev Outcome := Host.Outcome State Fault Refusal

/-- Go on from a next state; a stop stays a stop. -/
def andThen (o : Outcome) (f : State → Outcome) : Outcome :=
  match o with
  | .next s => f s
  | .fault r => .fault r
  | .refused r => .refused r

/-- The vector of four cells that holds `f a` at address `a`. -/
def quad {α : Type} (f : Dac → α) : Vector α 4 := #v[f 0, f 1, f 2, f 3]

/-- The four DAC addresses in ascending order (rule R32). -/
def dacs : List Dac := [0, 1, 2, 3]

/-- A DAC address as a channel address (rule R19: an axis is identified by its channel address). -/
def dacChannel (a : Dac) : Channel := BitVec.ofNat 3 a.val

/-- An ADC input as a channel address, 4 to 6 (rule R33). -/
def adcChannel (a : Adc) : Channel := BitVec.ofNat 3 (4 + a.val)

/-- The DAC output a channel address names, if it names one (rules R32, R33). -/
def dacOf (c : Channel) : Option Dac :=
  if h : c.toNat < 4 then some ⟨c.toNat, h⟩ else none

/-- `AXES` as the strictly ascending list of rule R8. -/
def axesOf (p : Params) : List Dac := dacs.filter fun a => p.isAxis[a]

/-! ### The Channel Table -/

/-- `dir(c)`: the fixed direction of an address (rules R17, R90). -/
def direction (c : Channel) : Direction :=
  if c.toNat < 4 then .dacOut else if c = cmdAddr then .command else .adcIn

/-- The `tbl_dir` code of a direction: 0 out, 1 in, 2 command (rule R30, D2). -/
def directionCode : Direction → BitVec 2
  | .dacOut => 0#2
  | .adcIn => 1#2
  | .command => 2#2

/-- Read `tbl[c]` (rule R12). -/
def State.tblAt (s : State) (c : Channel) : Option U16 := s.tbl[c.toNat]'c.isLt

/-- `tbl[c] <- known(v)`, for every address but the command channel, whose entry no rule writes
(rules R12, R16, R65). -/
def State.setTbl (s : State) (c : Channel) (v : U16) : State :=
  if c = cmdAddr then s else { s with tbl := s.tbl.set c.toNat (some v) c.isLt }

/-! ### Output histories -/

/-- `emit_ev(e)` (rule R12). -/
def State.emitEv (s : State) (e : Event) : State := { s with events := s.events ++ [e] }

/-- `emit_tx(f)`: the three bytes of a frame, in order and contiguously (rules R12, R39). -/
def State.emitTx (s : State) (f : Frame) : State := { s with txStream := s.txStream ++ f.bytes }

/-- `return r` (rule R12). -/
def State.giveResult (s : State) (r : Result) : State := { s with results := s.results ++ [r] }

/-! ### Sending one frame -/

/-- What a successful encode-and-send does (rules R63, R65, R98): the frame on the wire, the table entry
unless the channel is 7, the last packet, the echo. -/
def State.sendFrame (s : State) (p : Packet) : State :=
  let s1 := (s.emitTx (encodePacket p)).setTbl p.channel p.value
  { s1 with last := some p }.emitEv (.echo p.value p.channel p.mode)

/-- Frames sent one after the other, in order. -/
def State.sendFrames (s : State) (ps : List Packet) : State := ps.foldl State.sendFrame s

end Sys2Proof.Machine
end

