-- ==== Sys2Proof/Machine/Operands.lean ====
section
/-! DEFINITION. The operand forms of the instructions. A frame class takes a channel and a 16-bit value
out of the frame (rule R50, in Decode); what is left to say is which channels a data class takes, and
which sets and maps of addresses are arguments of the move operations. -/

namespace Sys2Proof.Machine

/-- The operand form of a data class: a channel 0 to 6 (rules R51, R52). -/
def isDataChannel (c : Channel) : Bool := c != cmdAddr

/-- `S` is a subset of `AXES` (rule R98). -/
def axesOnly (p : Params) (axes : Vector Bool 4) : Bool :=
  dacs.all fun a => !axes[a] || p.isAxis[a]

/-- The domain of a partial map from axes to targets (rule R103). -/
def domainOf (targets : Vector (Option U16) 4) : Vector Bool 4 := quad fun a => (targets[a]).isSome

/-- The one-axis set, for an operation that names one axis. -/
def onlyAxis (a : Dac) : Vector Bool 4 := quad fun b => b == a

end Sys2Proof.Machine
end

