-- ==== Sys2Proof/Machine/Flags.lean ====
section
/-! DEFINITION. The condition-like values of rule R25. The unit stores no flag register: `Moving` and
`OnTarget` are predicates (R20), and the result of a tick (R100) is computed on each call. -/

namespace Sys2Proof.Machine

/-- `Moving(a)`: current differs from target (rule R20). -/
def State.moving (s : State) (a : Dac) : Bool := s.current[a] != s.target[a]

/-- `OnTarget(a)`: current equals target (rule R20). -/
def State.onTarget (s : State) (a : Dac) : Bool := s.current[a] == s.target[a]

/-- Some axis of the set is off target: the result of a tick, taken after its steps (rule R100). -/
def State.anyMoving (s : State) (axes : Vector Bool 4) : Bool :=
  (axesOf s.params).any fun a => axes[a] && s.moving a

end Sys2Proof.Machine
end

