-- ==== Sys2Proof/Machine/Receipt.lean ====
section
/-! DEFINITION. The meanings of the eight frame classes at this unit: what DISPATCH does with a Packet of
the class (rules R81 to R86). Their meanings at the DIM stand in Machine/FarEnd.lean. -/

namespace Sys2Proof.Machine

/-- Record a decoded value and notify the display (rule R82). -/
def State.recordReceived (s : State) (ch : Channel) (v : U16) : State :=
  (s.setTbl ch v).emitEv (.chanUpdate ch v)

/-- A data Packet: rule R82 for the channels 0 to 6. A term with channel 7 is no frame (log entry 13, DESIGN CHOICE). -/
def receiveData (ch : Channel) (v : U16) (s : State) : Outcome :=
  if isDataChannel ch then .next (s.recordReceived ch v) else .refused .dataClassOnCommandChannel

/-- LOAD, received: rule R82. -/
def execLoad (ch : Channel) (v : U16) (s : State) : Outcome := receiveData ch v s

/-- LOADUPD, received: rule R82 (the mode is not examined). -/
def execLoadUpd (ch : Channel) (v : U16) (s : State) : Outcome := receiveData ch v s

/-- LOADALL, received: rule R82 (mode 2 means nothing at the near end). -/
def execLoadAll (ch : Channel) (v : U16) (s : State) : Outcome := receiveData ch v s

/-- RSVD3, received: rule R82 (mode 3 is reserved, not an error, R53). -/
def execRsvd3 (ch : Channel) (v : U16) (s : State) : Outcome := receiveData ch v s

/-- CMDINIT, received: rule R83; the value is ignored. -/
def execCmdInit (_v : U16) (s : State) : Outcome := .next (s.emitEv .cmdInit)

/-- CMDSAVE, received: rule R84; the value is ignored. -/
def execCmdSave (_v : U16) (s : State) : Outcome := .next (s.emitEv .cmdSave)

/-- CMDRSV2, received: rule R85, nothing happens. -/
def execCmdRsv2 (_v : U16) (s : State) : Outcome := .next s

/-- CMDRSV3, received: rule R86, nothing happens. -/
def execCmdRsv3 (_v : U16) (s : State) : Outcome := .next s

end Sys2Proof.Machine
end

