-- ==== Sys2Proof/Machine/Dispatch.lean ====
section
/-! DEFINITION. One arm per frame class: what this unit does with a Packet of the class (rule R81). -/

namespace Sys2Proof.Machine

/-- DISPATCH by class (rule R81). -/
def exec (i : Instr) (s : State) : Host.Outcome State Fault Refusal :=
  match i with
  | .load ch v => Sys2Proof.Machine.execLoad ch v s
  | .loadUpd ch v => Sys2Proof.Machine.execLoadUpd ch v s
  | .loadAll ch v => Sys2Proof.Machine.execLoadAll ch v s
  | .rsvd3 ch v => Sys2Proof.Machine.execRsvd3 ch v s
  | .cmdInit v => Sys2Proof.Machine.execCmdInit v s
  | .cmdSave v => Sys2Proof.Machine.execCmdSave v s
  | .cmdRsv2 v => Sys2Proof.Machine.execCmdRsv2 v s
  | .cmdRsv3 v => Sys2Proof.Machine.execCmdRsv3 v s

end Sys2Proof.Machine
end

