-- ==== Sys2Proof/Machine/Link.lean ====
section
/-! DEFINITION. The operations on the serial link: SEND (rules R63 to R65), RX_BYTE (R67), DRAIN (R73),
LINK_SET (R122), and with them ENCODE as an operation (R61). -/

namespace Sys2Proof.Machine

/-- `ENCODE(value, channel, mode)` (rule R61): a result, no state. -/
def opEncode (value channel mode : Nat) (s : State) : State :=
  s.giveResult (.frame (encodeFields value channel mode))

/-- `SEND(value, channel, mode)`: rule R63 with the link up, a no-op with the link down (R64). -/
def opSend (value channel mode : Nat) (s : State) : State :=
  if s.linkUp then s.sendFrame (maskFields value channel mode) else s

/-- `DISPATCH(p)` (rule R81): the meaning of the Packet's class. -/
def dispatch (p : Packet) (s : State) : Outcome := exec (classify p) s

/-- `RX_BYTE(b)` (rules R67, R74): one decoder step, and the Packet it completes is dispatched in the
same step. -/
def opRxByte (b : Byte) (s : State) : Outcome :=
  if s.linkUp then
    let d := decodeStep s.params.strictCont s.rxState b
    let s1 := { s with rxState := d.1 }
    match d.2 with
    | none => .next s1
    | some p => dispatch p s1
  else .next s

/-- The bytes of a drain handed over one by one, first to last (rule R73). -/
def rxBytes : List Byte → State → Outcome
  | [], s => .next s
  | b :: bs, s => andThen (opRxByte b s) (rxBytes bs)

/-- `DRAIN(bs)` (rules R73, R74). -/
def opDrain (bs : List Byte) (s : State) : Outcome :=
  if s.linkUp then rxBytes bs s else .next s

/-- `LINK_SET(u)` (rule R122): nothing but the link state changes. -/
def opLinkSet (up : Bool) (s : State) : State := { s with linkUp := up }

end Sys2Proof.Machine
end

