-- ==== Sys2Proof/Machine/FarEnd.lean ====
section
/-! DEFINITION. The far end, the DIM: the wire meaning of the eight frame classes (rules R107 to R117) and
the line between the unit and the DIM. Every point the spec leaves open about the DIM is a free value. -/

namespace Sys2Proof.Machine

/-! ### Free values -/

/-- Four drawn cells, starting at the n-th free value. -/
def drawCells (n : Nat) : Vector (Option U16) 4 := quad fun a => Config.freeEntry (n + a.val)

/-- Registers and outputs of every channel become unconstrained (rule R113). -/
def FarEnd.drawLatch (fe : FarEnd) : FarEnd :=
  { fe with
    reg := drawCells fe.draws
    out := drawCells (fe.draws + 4)
    draws := fe.draws + 8 }

/-- A decoder state that rule R15 allows, whatever `rx` is: bit 7 of the held byte0 is cleared. Every state
that R15 allows is its own image. -/
def withSyncFirst : RxState → RxState
  | .awaitSync => .awaitSync
  | .haveFirst b0 => .haveFirst (b0 &&& 0x7F#8)
  | .haveSecond b0 b1 => .haveSecond (b0 &&& 0x7F#8) b1

/-- The whole far-end state of rule R108 becomes unconstrained: registers, outputs, EEPROM, feedback mode,
and the decoder, which is drawn among the states rule R15 allows (rules R114, R117, U3, U4; log entry 17,
DESIGN CHOICE). The two ends of the line are no part of it and stay. -/
def FarEnd.drawAll (fe : FarEnd) : FarEnd :=
  { fe with
    reg := drawCells fe.draws
    out := drawCells (fe.draws + 4)
    eeprom := drawCells (fe.draws + 8)
    feedback := Config.freeFeedback (fe.draws + 12)
    rx := withSyncFirst (Config.freeRx (fe.draws + 13))
    draws := fe.draws + 14 }

/-! ### Data frames -/

/-- Write a channel register. -/
def FarEnd.setReg (fe : FarEnd) (a : Dac) (v : U16) : FarEnd :=
  { fe with reg := fe.reg.set a.val (some v) a.isLt }

/-- LOAD at the DIM: the register, no output (rule R110); an ADC address is unspecified (R114). -/
def feLoad (c : Channel) (v : U16) (fe : FarEnd) : FarEnd :=
  match dacOf c with
  | some a => fe.setReg a v
  | none => fe.drawAll

/-- LOADUPD at the DIM: the register and this channel's output (rule R111; R114). -/
def feLoadUpd (c : Channel) (v : U16) (fe : FarEnd) : FarEnd :=
  match dacOf c with
  | some a => { fe.setReg a v with out := fe.out.set a.val (some v) a.isLt }
  | none => fe.drawAll

/-- LOADALL at the DIM: the register, then all four outputs from the registers in one step (rule R112;
R114). -/
def feLoadAll (c : Channel) (v : U16) (fe : FarEnd) : FarEnd :=
  match dacOf c with
  | some a => { fe.setReg a v with out := (fe.setReg a v).reg }
  | none => fe.drawAll

/-- RSVD3 at the DIM: every register and output unconstrained (rule R113; R114). -/
def feRsvd3 (c : Channel) (_v : U16) (fe : FarEnd) : FarEnd :=
  match dacOf c with
  | some _ => fe.drawLatch
  | none => fe.drawAll

/-! ### Command frames -/

/-- The EEPROM value of a DAC channel: what the last *Save* stored, else a free value (rule R115, U7). -/
def FarEnd.eepromValue (fe : FarEnd) (a : Dac) : U16 :=
  (fe.eeprom[a]).getD (Config.factoryEeprom a)

/-- A list in the order a number picks: the number's residues choose the elements one by one, so that
every order is picked by some number. -/
def pickOrder {α : Type} : Nat → Nat → List α → List α
  | 0, _, _ => []
  | n + 1, k, xs =>
    match xs[k % (n + 1)]? with
    | none => []
    | some x => x :: pickOrder n (k / (n + 1)) (xs.eraseIdx (k % (n + 1)))

/-- The echo of an *Initialize*: one frame for each of the addresses 0 to 3 with its EEPROM value; the
order and the mode fields are free values (rule R115; log entry 10, DESIGN CHOICE). -/
def FarEnd.echoFrames (fe : FarEnd) : List Frame :=
  (pickOrder 4 (Config.freeOrder (fe.draws + 9)) dacs).map fun a =>
    encodePacket
      { channel := dacChannel a
        mode := Config.freeMode (fe.draws + 5 + a.val)
        value := fe.eepromValue a }

/-- CMDINIT at the DIM: *Initialize* (rule R115). The registers take the EEPROM values, the outputs are
unconstrained, the feedback mode is set to something opaque, the echo frames are sent. -/
def feCmdInit (_v : U16) (fe : FarEnd) : FarEnd :=
  { fe with
    reg := quad fun a => some (fe.eepromValue a)
    out := drawCells fe.draws
    feedback := Config.freeFeedback (fe.draws + 4)
    sent := fe.sent ++ fe.echoFrames.flatMap Frame.bytes
    draws := fe.draws + 10 }

/-- CMDSAVE at the DIM: *Save* (rule R116). Registers and outputs stay; nothing is sent back. -/
def feCmdSave (_v : U16) (fe : FarEnd) : FarEnd :=
  { fe with eeprom := quad fun a => some (Config.savedValue fe.reg fe.out a) }

/-- CMDRSV2 at the DIM: unspecified (rule R117). -/
def feCmdRsv2 (_v : U16) (fe : FarEnd) : FarEnd := fe.drawAll

/-- CMDRSV3 at the DIM: unspecified (rule R117). -/
def feCmdRsv3 (_v : U16) (fe : FarEnd) : FarEnd := fe.drawAll

/-- The far end's action on a frame class (rule R109). -/
def feAct (i : Instr) (fe : FarEnd) : FarEnd :=
  match i with
  | .load c v => feLoad c v fe
  | .loadUpd c v => feLoadUpd c v fe
  | .loadAll c v => feLoadAll c v fe
  | .rsvd3 c v => feRsvd3 c v fe
  | .cmdInit v => feCmdInit v fe
  | .cmdSave v => feCmdSave v fe
  | .cmdRsv2 v => feCmdRsv2 v fe
  | .cmdRsv3 v => feCmdRsv3 v fe

/-- `FE_PACKET(p)` (rule R109). -/
def fePacket (p : Packet) (fe : FarEnd) : FarEnd := feAct (classify p) fe

/-- One byte arrives at the DIM: its own decoder steps, and acts on the Packet it completes (rules R108,
R109). -/
def feByte (strict : Bool) (fe : FarEnd) (b : Byte) : FarEnd :=
  let d := decodeStep strict fe.rx b
  let fe1 := { fe with rx := d.1 }
  match d.2 with
  | none => fe1
  | some p => fePacket p fe1

/-- Bytes arrive at the DIM one after the other. -/
def feBytes (strict : Bool) (fe : FarEnd) (bs : List Byte) : FarEnd := bs.foldl (feByte strict) fe

/-- The DIM's own power-up (rule R108): registers and outputs are unknown, the feedback mode is drawn anew,
the decoder is at a frame boundary, the EEPROM keeps its content (log entry 6, DESIGN CHOICE). -/
def FarEnd.powerCycle (fe : FarEnd) : FarEnd :=
  { FarEnd.powerUp with
    eeprom := fe.eeprom
    feedback := Config.freeFeedback fe.draws
    sent := fe.sent
    taken := fe.taken
    draws := fe.draws + 1 }

/-- The DIM sends bytes (rule R9): they wait on the line. -/
def FarEnd.send (fe : FarEnd) (bs : List Byte) : FarEnd := { fe with sent := fe.sent ++ bs }

/-- The DIM sends a reading of an ADC input: one frame to its address, 4 to 6 (rule R114). -/
def FarEnd.sendReading (fe : FarEnd) (a : Adc) (mode : Mode) (value : U16) : FarEnd :=
  fe.send (encodePacket { channel := adcChannel a, mode := mode, value := value }).bytes

/-! ### The line (rules R9, R118, U13) -/

/-- The next `n` bytes of `tx_stream` the line has not passed yet. -/
def State.inFlight (s : State) (n : Nat) : List Byte := (s.txStream.drop s.farEnd.taken).take n

/-- The line passes the next `n` bytes of `tx_stream` to the DIM, unchanged and in order. -/
def opLineToDim (n : Nat) (s : State) : State :=
  let bs := s.inFlight n
  let fe := feBytes s.params.dimStrict s.farEnd bs
  { s with farEnd := { fe with taken := fe.taken + bs.length } }

/-- The line loses the next byte of `tx_stream`. -/
def opLineLosesToDim (s : State) : State :=
  { s with farEnd := { s.farEnd with taken := s.farEnd.taken + (s.inFlight 1).length } }

/-- The line hands the DIM a byte of its own. -/
def opLineNoiseToDim (b : Byte) (s : State) : State :=
  { s with farEnd := feByte s.params.dimStrict s.farEnd b }

/-- Transport drains the next `n` bytes the DIM has sent into the unit (rule R73). With the link down
none is consumed (R74). -/
def opLineToUnit (n : Nat) (s : State) : Outcome :=
  if s.linkUp then
    opDrain (s.farEnd.sent.take n)
      { s with farEnd := { s.farEnd with sent := s.farEnd.sent.drop n } }
  else .next s

/-- The line loses the next byte the DIM has sent. -/
def opLineLosesToUnit (s : State) : State :=
  { s with farEnd := { s.farEnd with sent := s.farEnd.sent.drop 1 } }

/-- The DIM is powered up anew; the unit sees nothing of it (rule R134). -/
def opDimPowerUp (s : State) : State := { s with farEnd := s.farEnd.powerCycle }

/-- The DIM sends a reading of an ADC input (rule R114). -/
def opDimReading (a : Adc) (mode : Mode) (value : U16) (s : State) : State :=
  { s with farEnd := s.farEnd.sendReading a mode value }

/-- The DIM sends any other bytes (rule R9). -/
def opDimSends (bs : List Byte) (s : State) : State := { s with farEnd := s.farEnd.send bs }

end Sys2Proof.Machine
end

