-- ==== Sys2Proof/Machine/Move.lean ====
section
/-! DEFINITION. The Move Controller: SET_TARGET (rule R94), the slew step (R95), the frames of a tick
(R97, R101), MOVE_TICK (R98 to R100), MOVE_TO_TARGET (R103). -/

namespace Sys2Proof.Machine

/-- The slew function on naturals (rule R95). -/
def slewNat (step cur tgt : Nat) : Nat :=
  if tgt > cur then cur + min step (tgt - cur)
  else if tgt < cur then cur - min step (cur - tgt)
  else cur

/-- The slew function on u16; the result lies between the arguments, so nothing wraps (rule R95). -/
def slew (step : StepSize) (cur tgt : U16) : U16 :=
  BitVec.ofNat 16 (slewNat step.val cur.toNat tgt.toNat)

/-- The axes of the set that are off target, in ascending address order (rules R98, R101). -/
def State.movedAxes (s : State) (axes : Vector Bool 4) : List Dac :=
  (axesOf s.params).filter fun a => axes[a] && s.moving a

/-- Every axis of the set that is off target makes one slew step (rule R98). -/
def State.slewAxes (s : State) (axes : Vector Bool 4) : State :=
  { s with
    current := quad fun a =>
      if s.params.isAxis[a] && axes[a] && s.moving a then
        slew s.params.stepSize s.current[a] s.target[a]
      else s.current[a] }

/-- The modes of several moved axes: mode 0 for all but the last, mode 2 for the last (rule R97). -/
def groupModes : List Dac → List (Dac × Mode)
  | [] => []
  | [a] => [(a, 2#2)]
  | a :: b :: rest => (a, 0#2) :: groupModes (b :: rest)

/-- The mode of each moved axis: mode 1 for a single one (rule R97). -/
def tickModes (moved : List Dac) : List (Dac × Mode) :=
  match moved with
  | [a] => [(a, 1#2)]
  | _ => groupModes moved

/-- The Packets of one tick, given the axes that moved and the state with their new values (rules R97,
R98). -/
def State.tickPackets (s : State) (moved : List Dac) : List Packet :=
  (tickModes moved).map fun am =>
    { channel := dacChannel am.1, mode := am.2, value := s.current[am.1] }

/-- One control tick over the axes of the set (rules R98 to R101): the steps, then, with the link up, the
frames, then the result. -/
def tick (axes : Vector Bool 4) (s : State) : State :=
  let moved := s.movedAxes axes
  let s1 := s.slewAxes axes
  let s2 := if s1.linkUp then s1.sendFrames (s1.tickPackets moved) else s1
  s2.giveResult (.moving (s1.anyMoving axes))

/-- `target[a] <- t` for one axis (rule R94). -/
def State.writeTarget (s : State) (a : Dac) (t : U16) : State :=
  { s with target := s.target.set a.val t a.isLt }

/-- `target[a] <- t` for every entry of a partial map (rule R103). -/
def State.writeTargets (s : State) (targets : Vector (Option U16) 4) : State :=
  { s with target := quad fun a => (targets[a]).getD s.target[a] }

/-- `SET_TARGET(a, t)` with `a` in `AXES` (rule R94). -/
def opSetTarget (a : Dac) (t : U16) (s : State) : Outcome :=
  if s.params.isAxis[a] then .next (s.writeTarget a t) else .refused .notAnAxis

/-- `MOVE_TICK(S)` with `S` a subset of `AXES` (rule R98). -/
def opMoveTick (axes : Vector Bool 4) (s : State) : Outcome :=
  if axesOnly s.params axes then .next (tick axes s) else .refused .notAnAxis

/-- `MOVE_TO_TARGET(targets)` (rule R103): the targets, then the tick over the map's domain, as one
operation. -/
def opMoveToTarget (targets : Vector (Option U16) 4) (s : State) : Outcome :=
  if axesOnly s.params (domainOf targets) then
    .next (tick (domainOf targets) (s.writeTargets targets))
  else .refused .notAnAxis

end Sys2Proof.Machine
end

