-- ==== Sys2Proof/Machine/Table.lean ====
section
/-! DEFINITION. The direct operations of the Host agent: OP_INIT (rule R88), OP_SAVE (R89), TBL_READ
(R90) and RESET (R133). -/

namespace Sys2Proof.Machine

/-- `OP_INIT()` (rule R88): the event, no frame, no look at the link. -/
def opInit (s : State) : State := s.emitEv .cmdInit

/-- `OP_SAVE()` (rule R89). -/
def opSave (s : State) : State := s.emitEv .cmdSave

/-- `TBL_READ(c)` (rule R90): the entry and its direction; nothing else changes. -/
def opTblRead (c : Channel) (s : State) : State :=
  s.giveResult (.entry (s.tblAt c) (direction c))

/-- `RESET()` (rule R133): every element of the unit at its value of rule R29. The far end's registers,
the parameters and the operations still to be served stay; the position in the emptied `tx_stream`
is 0 (log entry 11, DESIGN CHOICE). -/
def opReset (s : State) : State :=
  { State.powerOn s.params with
    farEnd := { s.farEnd with taken := 0 }
    requests := s.requests }

end Sys2Proof.Machine
end

