-- ==== Sys2Proof/Machine/Perform.lean ====
section
/-! DEFINITION. Performing one operation of the step alphabet (rule R10), and who may issue it (R9). -/

namespace Sys2Proof.Machine

/-- The agents (rule R9). An operation does not carry its issuer (R131). -/
inductive Agent where
  /-- The serial link, with the line behind it. -/
  | transport
  /-- The local control surface or any direct caller. -/
  | host
  /-- The target generator of one axis. -/
  | setpointSource (a : Dac)
  /-- A periodic task that drives ticks. -/
  | moveDriver
  /-- The DIM: it consumes `tx_stream` and produces bytes. -/
  | farEnd
deriving DecidableEq, Repr

/-- The agent an operation is issued by: the table of rule R9, and for three kinds of operation the model's
choice (log entry 20, DESIGN CHOICE). ENCODE, which the table lists under no agent, is given to the Host;
the line's steps to Transport; the DIM's own steps, and the taking of bytes off the line, to FarEnd. No
operation carries its issuer (R131), and no step depends on it. -/
def issuer : Request → Agent
  | .encode _ _ _ => .host
  | .send _ _ _ => .host
  | .rxByte _ => .transport
  | .drain _ => .transport
  | .opInit => .host
  | .opSave => .host
  | .tblRead _ => .host
  | .setTarget a _ => .setpointSource a
  | .moveTick _ => .moveDriver
  | .moveToTarget _ => .moveDriver
  | .linkSet _ => .transport
  | .reset => .host
  | .lineToDim _ => .farEnd
  | .lineLosesToDim => .transport
  | .lineNoiseToDim _ => .transport
  | .lineToUnit _ => .transport
  | .lineLosesToUnit => .transport
  | .dimPowerUp => .farEnd
  | .dimReading _ _ _ => .farEnd
  | .dimSends _ => .farEnd

/-- The arguments are of the stated types (rules R10, R94, R98, R103): axes come from `AXES`. -/
def Request.typed (p : Params) : Request → Bool
  | .setTarget a _ => p.isAxis[a]
  | .moveTick axes => axesOnly p axes
  | .moveToTarget targets => axesOnly p (domainOf targets)
  | .encode _ _ _ => true
  | .send _ _ _ => true
  | .rxByte _ => true
  | .drain _ => true
  | .opInit => true
  | .opSave => true
  | .tblRead _ => true
  | .linkSet _ => true
  | .reset => true
  | .lineToDim _ => true
  | .lineLosesToDim => true
  | .lineNoiseToDim _ => true
  | .lineToUnit _ => true
  | .lineLosesToUnit => true
  | .dimPowerUp => true
  | .dimReading _ _ _ => true
  | .dimSends _ => true

/-- One operation, as one atomic step (rules R10, R41). -/
def perform (r : Request) (s : State) : Outcome :=
  match r with
  | .encode v c m => .next (opEncode v c m s)
  | .send v c m => .next (opSend v c m s)
  | .rxByte b => opRxByte b s
  | .drain bs => opDrain bs s
  | .opInit => .next (opInit s)
  | .opSave => .next (opSave s)
  | .tblRead c => .next (opTblRead c s)
  | .setTarget a t => opSetTarget a t s
  | .moveTick axes => opMoveTick axes s
  | .moveToTarget targets => opMoveToTarget targets s
  | .linkSet up => .next (opLinkSet up s)
  | .reset => .next (opReset s)
  | .lineToDim n => .next (opLineToDim n s)
  | .lineLosesToDim => .next (opLineLosesToDim s)
  | .lineNoiseToDim b => .next (opLineNoiseToDim b s)
  | .lineToUnit n => opLineToUnit n s
  | .lineLosesToUnit => .next (opLineLosesToUnit s)
  | .dimPowerUp => .next (opDimPowerUp s)
  | .dimReading a m v => .next (opDimReading a m v s)
  | .dimSends bs => .next (opDimSends bs s)

/-- A run: a finite sequence of operations from a start state (rule R150). -/
def performAll : List Request → State → Outcome
  | [], s => .next s
  | r :: rs, s => andThen (perform r s) (performAll rs)

/-- Serve the next operation issued, if there is one; with none issued the unit is idle and holds its
state (rules R9, R132). -/
def serveNext (s : State) : Outcome :=
  match s.requests with
  | [] => .next s
  | r :: rest => perform r { s with requests := rest }

/-- `s` with these bytes arriving next, as one drain, at a decoder at a frame boundary with the link up. -/
def State.withArrival (s : State) (bs : List Byte) : State :=
  { s with
    rxState := .awaitSync
    linkUp := true
    requests := .drain bs :: s.requests }

end Sys2Proof.Machine
end

