-- ==== Sys2Proof/Machine/Step.lean ====
section
/-! DEFINITION. The step: the next operation the agents have issued is performed (rules R7, R41). -/

namespace Sys2Proof.Machine

/-- One step of the machine. -/
def step (s : State) : Host.Outcome State Fault Refusal := serveNext s

/-- `s` with the instruction of a table word arriving next (log entries 15, DEDUCED, and 16, DESIGN CHOICE). -/
def State.withFetchWord (s : State) (nbits w : Nat) : State :=
  s.withArrival (tableWordBytes nbits w)

end Sys2Proof.Machine
end

