-- ==== Sys2Proof/Safety.lean ====
section
/-! DEFINITION. The terms claims are made in: what the spec calls an invariant of the unit (rules R15,
R16, R22, R34), what the histories say of the state, the pseudocode of a tick read line by line (R98),
and the match and mask of the frame classes (R51). -/

namespace Sys2Proof.Machine

/-! ### Invariants -/

/-- byte0 of a partial frame is a sync byte (rule R15). -/
def holdsSync : RxState → Bool
  | .awaitSync => true
  | .haveFirst b0 => isSync b0
  | .haveSecond b0 _ => isSync b0

/-- Both decoders hold a sync byte as byte0 (rules R15, R108), and the line has passed no more than was
written (log entry 11). -/
def DecoderInv (s : State) : Prop :=
  holdsSync s.rxState = true ∧ holdsSync s.farEnd.rx = true ∧ s.farEnd.taken ≤ s.txStream.length

/-- The Packet an event says was sent. -/
def sentPacket : Event → Option Packet
  | .echo v c m => some { channel := c, mode := m, value := v }
  | .chanUpdate _ _ => none
  | .cmdInit => none
  | .cmdSave => none

/-- The value an event says a channel now has (rules R16, R65, R82). -/
def channelValue (c : Channel) : Event → Option U16
  | .echo v c' _ => if c' = c then some v else none
  | .chanUpdate c' v => if c' = c then some v else none
  | .cmdInit => none
  | .cmdSave => none

/-- The Packets sent since reset, oldest first, as the echoes report them (rule R125). -/
def sentPackets (es : List Event) : List Packet := es.filterMap sentPacket

/-- The last-known value of a channel, as the events report it (rule R16). -/
def lastKnown (c : Channel) (es : List Event) : Option U16 := (es.filterMap (channelValue c)).getLast?

/-- The state agrees with its event history: `tx_stream` is the frames echoed (rules R22, R63, R125),
`last` is the last of them (R18), every table entry but 7 is the last value sent or received (R16), and
entry 7 is unknown (R16). -/
def HistoryInv (s : State) : Prop :=
  s.txStream = (sentPackets s.events).flatMap (fun p => (encodePacket p).bytes) ∧
  s.last = (sentPackets s.events).getLast? ∧
  (∀ c, c ≠ cmdAddr → s.tblAt c = lastKnown c s.events) ∧
  s.tblAt cmdAddr = none

/-! ### Receiving -/

/-- Packets dispatched one after the other, in order (rule R81). -/
def dispatchAll : List Packet → State → Outcome
  | [], s => .next s
  | p :: ps, s => andThen (dispatch p s) (dispatchAll ps)

/-- The bytes of the frames of some Packets, in order. -/
def wire (ps : List Packet) : List Byte := ps.flatMap fun p => (encodePacket p).bytes

/-! ### The pseudocode of a tick, line by line (rule R98) -/

/-- The body of the first loop of rule R98, for one axis `a`. -/
def tickLoopBody (axes : Vector Bool 4) (acc : State × List (Dac × U16)) (a : Dac) :
    State × List (Dac × U16) :=
  if axes[a] then
    if acc.1.current[a] ≠ acc.1.target[a] then
      let v := slew acc.1.params.stepSize acc.1.current[a] acc.1.target[a]
      ({ acc.1 with current := acc.1.current.set a.val v a.isLt }, acc.2 ++ [(a, v)])
    else acc
  else acc

/-- The body of the second loop of rule R98: one frame, its table entry, last packet and echo. -/
def sendLoopBody (s : State) (a : Dac) (v : U16) (m : Mode) : State :=
  { s with
    txStream := s.txStream ++ (encodePacket { channel := dacChannel a, mode := m, value := v }).bytes
    tbl := s.tbl.set (dacChannel a).toNat (some v) (dacChannel a).isLt
    last := some { channel := dacChannel a, mode := m, value := v }
    events := s.events ++ [.echo v (dacChannel a) m] }

/-- The mode of the i-th of `n` frames, counted from 0 (rule R97 as rule R98 writes it). -/
def modeOf (n i : Nat) : Mode := if n = 1 then 1#2 else if i + 1 < n then 0#2 else 2#2

/-- The second loop of rule R98 over the moved axes, `i` frames of `n` already sent. -/
def sendLoop (n : Nat) : Nat → List (Dac × U16) → State → State
  | _, [], s => s
  | i, (a, v) :: rest, s => sendLoop n (i + 1) rest (sendLoopBody s a v (modeOf n i))

/-- Rule R98 read line by line. -/
def tickByRule (axes : Vector Bool 4) (s : State) : State :=
  let r := (axesOf s.params).foldl (tickLoopBody axes) (s, [])
  let s2 := if r.1.linkUp then sendLoop r.2.length 0 r.2 r.1 else r.1
  { s2 with
    results := s2.results ++
      [.moving ((axesOf s.params).any fun a => axes[a] && (s2.current[a] != s2.target[a]))] }

/-! ### Match and mask (rule R51) -/

/-- The continuation bits the strict decoder adds to mask and match (rule R51). -/
def strictBits (strict : Bool) : BitVec 24 := if strict then 0x008080#24 else 0#24

/-- A 24-bit word meets a row's match under its mask, with the strict decoder's bits added (rule R51). -/
def meetsRow (strict : Bool) (mask mtch w : BitVec 24) : Bool :=
  w &&& (mask ||| strictBits strict) == (mtch ||| strictBits strict)

/-- The mask column of spec/opcode_table.json. -/
def rowMask : Instr → BitVec 24
  | .load _ _ => 0x8C0000#24
  | .loadUpd _ _ => 0x8C0000#24
  | .loadAll _ _ => 0x8C0000#24
  | .rsvd3 _ _ => 0x8C0000#24
  | .cmdInit _ => 0xFC0000#24
  | .cmdSave _ => 0xFC0000#24
  | .cmdRsv2 _ => 0xFC0000#24
  | .cmdRsv3 _ => 0xFC0000#24

/-- The match column of spec/opcode_table.json. -/
def rowMatch : Instr → BitVec 24
  | .load _ _ => 0x000000#24
  | .loadUpd _ _ => 0x040000#24
  | .loadAll _ _ => 0x080000#24
  | .rsvd3 _ _ => 0x0C0000#24
  | .cmdInit _ => 0x700000#24
  | .cmdSave _ => 0x740000#24
  | .cmdRsv2 _ => 0x780000#24
  | .cmdRsv3 _ => 0x7C0000#24

end Sys2Proof.Machine
end

