-- ==== Sys2Proof/Certificates/Slice0/Obligations.lean ====
section
/-! DEFINITION. The statements for the provers, file by file of the spec's rules. Every statement holds of
every state and every value of the parameters (rule R8) that its premises allow; a statement that
touches a free value holds for every value of it. -/

open Sys2Proof Sys2Proof.Machine

/-! ## Receipt of the frame classes (spec/42_channel_command.md) -/

/-- Rule R82: a received data Packet of any of the four modes writes its table entry, raises ChanUpdate,
and changes nothing else. -/
def Obligations.DataClassReceiptRecordsAndNotifies : Prop :=
  ∀ (ch : Channel) (v : U16) (s : State), ch ≠ cmdAddr →
    let t : State :=
      { s with
        tbl := s.tbl.set ch.toNat (some v) ch.isLt
        events := s.events ++ [.chanUpdate ch v] }
    exec (.load ch v) s = .next t ∧ exec (.loadUpd ch v) s = .next t ∧
    exec (.loadAll ch v) s = .next t ∧ exec (.rsvd3 ch v) s = .next t

/-- Rules R83, R84: a received *Initialize* raises CmdInit and a received *Save* raises CmdSave; nothing
else changes, whatever the value. -/
def Obligations.CommandReceiptRaisesItsEvent : Prop :=
  ∀ (v : U16) (s : State),
    exec (.cmdInit v) s = .next { s with events := s.events ++ [.cmdInit] } ∧
    exec (.cmdSave v) s = .next { s with events := s.events ++ [.cmdSave] }

/-- Rules R85, R86: the unknown command modes change nothing. -/
def Obligations.UnknownCommandsAreIgnored : Prop :=
  ∀ (v : U16) (s : State), exec (.cmdRsv2 v) s = .next s ∧ exec (.cmdRsv3 v) s = .next s

/-- The model's choice of log entry 13: a data class term with channel 7, which no frame encodes, is
refused by its own name. -/
def Obligations.DataClassWithCommandChannelIsRefused : Prop :=
  ∀ (v : U16) (s : State),
    exec (.load cmdAddr v) s = .refused .dataClassOnCommandChannel ∧
    exec (.loadUpd cmdAddr v) s = .refused .dataClassOnCommandChannel ∧
    exec (.loadAll cmdAddr v) s = .refused .dataClassOnCommandChannel ∧
    exec (.rsvd3 cmdAddr v) s = .refused .dataClassOnCommandChannel

/-- Rule R81: DISPATCH selects on the channel first and on the mode for channel 7 only; it does not read
the link state; and a drain dispatches every Packet the decoder emits, in emission order, a single
byte the one it completes, within the same step. That the dispatch belongs to the step of the
completing byte is the spec's own decision D7 (rule R67, log entry 19). -/
def Obligations.DispatchSelectsAndRunsInEmissionOrder : Prop :=
  (∀ (p : Packet) (s : State),
    dispatch p s = .next
      (if p.channel ≠ cmdAddr then
        { s with
          tbl := s.tbl.set p.channel.toNat (some p.value) p.channel.isLt
          events := s.events ++ [.chanUpdate p.channel p.value] }
      else if p.mode = 0#2 then { s with events := s.events ++ [.cmdInit] }
      else if p.mode = 1#2 then { s with events := s.events ++ [.cmdSave] }
      else s)) ∧
  (∀ (bs : List Byte) (s : State), s.linkUp = true →
    perform (.drain bs) s =
      dispatchAll (decodeRun s.params.strictCont s.rxState bs).2
        { s with rxState := (decodeRun s.params.strictCont s.rxState bs).1 }) ∧
  (∀ (b : Byte) (s : State), s.linkUp = true →
    perform (.rxByte b) s =
      dispatchAll (decodeStep s.params.strictCont s.rxState b).2.toList
        { s with rxState := (decodeStep s.params.strictCont s.rxState b).1 })

/-- Rules R88, R89: the direct command operations raise their event and nothing else, whatever the link
state. That no frame is sent is the spec's own decision D10 (log entry 19). -/
def Obligations.DirectCommandsRaiseTheirEvent : Prop :=
  ∀ s : State,
    perform .opInit s = .next { s with events := s.events ++ [.cmdInit] } ∧
    perform .opSave s = .next { s with events := s.events ++ [.cmdSave] }

/-- Rule R90: TBL_READ returns the entry and the direction of the address and changes nothing else; where
entry 7 is unknown, as HistoryInv says it always is, address 7 gives (unknown, command). -/
def Obligations.TableReadReturnsEntryAndDirection : Prop :=
  (∀ (c : Channel) (s : State),
    perform (.tblRead c) s = .next
      { s with
        results := s.results ++
          [.entry (s.tbl[c.toNat]'c.isLt)
            (if c.toNat ≤ 3 then .dacOut else if c.toNat ≤ 6 then .adcIn else .command)] }) ∧
  (∀ s : State, s.tblAt cmdAddr = none →
    perform (.tblRead cmdAddr) s = .next { s with results := s.results ++ [.entry none .command] })

/-! ## The step -/

/-- What a run reaches of the instructions' meanings: three bytes that decode to an instruction,
arriving as the next operation at a frame boundary with the link up, run exactly that instruction;
and a single byte that completes a Packet runs the instruction of the Packet's class, within the
same step. What the step adds around exec is the operation taken off the list and the decoder state.
That operations wait in a list, served one a step, is the model's choice (log entry 1); that the
instruction of a single completing byte runs in the same step is the spec's own decision D7 (log
entry 19). -/
def Obligations.StepRunsDecodedInstruction : Prop :=
  (∀ (s : State) (b0 b1 b2 : Byte) (rest : List Request) (i : Instr),
    s.linkUp = true → s.rxState = .awaitSync → s.requests = .drain [b0, b1, b2] :: rest →
    decodeWith s.params.strictCont [b0, b1, b2] = .ok (i, []) →
    step s = exec i { s with requests := rest }) ∧
  (∀ (s : State) (b : Byte) (rest : List Request) (rx : RxState) (p : Packet),
    s.linkUp = true → s.requests = .rxByte b :: rest →
    decodeStep s.params.strictCont s.rxState b = (rx, some p) →
    step s = exec (classify p) { s with rxState := rx, requests := rest })

/-- The model's own placing of a table word (log entries 15, 16): with the reference decoder, the very
next step runs the instruction the word decodes to. -/
def Obligations.StepRunsPlacedTableWord : Prop :=
  ∀ (s : State) (nbits w : Nat) (i : Instr),
    s.params.strictCont = false → decodeTableWord nbits w = some i →
    step (s.withFetchWord nbits w) = exec i { s with rxState := .awaitSync, linkUp := true }

/-- The unit takes the operations its agents have issued one at a time, in the order served, each as one
step, and has no step of its own (rules R9, R41, R43; log entry 1). -/
def Obligations.StepServesOneOperation : Prop :=
  (∀ (s : State) (r : Request) (rest : List Request), s.requests = r :: rest →
    step s = perform r { s with requests := rest }) ∧
  (∀ s : State, s.requests = [] → step s = .next s)

/-! ## Frame format and ENCODE (spec/30_encoding.md, spec/40_codec_encode.md) -/

/-- Rule R61: ENCODE masks its operands, lays the fields out as the pseudocode says, and as an operation
returns the frame and changes no state of the unit. -/
def Obligations.EncodeFollowsThePseudocode : Prop :=
  ∀ value channel mode : Nat,
    let v := value % 2 ^ 16
    let c := channel % 2 ^ 3
    let m := mode % 2 ^ 2
    let f := encodeFields value channel mode
    f.byte0.toNat = (c <<< 4) ||| (m <<< 2) ||| (v >>> 14) ∧
    f.byte1.toNat = 0x80 ||| ((v >>> 7) &&& 0x7F) ∧
    f.byte2.toNat = 0x80 ||| (v &&& 0x7F) ∧
    ∀ s : State,
      perform (.encode value channel mode) s = .next { s with results := s.results ++ [.frame f] }

/-- Rule R62: ENCODE depends on its operands through the three residues only, different residues give
different frames, and the frame is always well-formed. The spec marks this as its own inference,
"from rule R61 and rule R60" (log entry 19). -/
def Obligations.EncodeIsDecidedByTheResidues : Prop :=
  ∀ v c m v' c' m' : Nat,
    (encodeFields v c m = encodeFields v' c' m' ↔
      v % 2 ^ 16 = v' % 2 ^ 16 ∧ c % 8 = c' % 8 ∧ m % 4 = m' % 4) ∧
    (encodeFields v c m).wf = true

/-- Rule R48: a frame is well-formed exactly when its marker bits are 0, 1, 1; the well-formed frames
are exactly the outputs of ENCODE; and as a 24-bit word the test is `F & 0x808080 == 0x008080`. The
second clause is the spec's own inference from rule R61 (log entry 19). -/
def Obligations.WellFormedFramesAreTheEncodings : Prop :=
  ∀ f : Frame,
    (f.wf = true ↔
      f.byte0.getLsbD 7 = false ∧ f.byte1.getLsbD 7 = true ∧ f.byte2.getLsbD 7 = true) ∧
    (f.wf = true ↔ ∃ value channel mode : Nat, encodeFields value channel mode = f) ∧
    (f.wf = true ↔ f.word &&& 0x808080#24 = 0x008080#24)

/-- Decode and encode agree: every well-formed instruction, with every operand the encoding admits, is
read back from its frame by either decoder, and what follows the frame is left untouched. -/
def Obligations.DecodeOfEncodeIsTheInstruction : Prop :=
  ∀ (i : Instr) (strict : Bool) (rest : List Byte), i.wf = true →
    decodeWith strict ((encode i).bytes ++ rest) = .ok (i, rest)

/-- The other direction: every well-formed frame is the encoding of exactly one well-formed instruction,
the one decoding gives (rules R52, R60). The bijection is the spec's own inference, "from rules R49
and R50, which are inverse on well-formed frames" (log entry 19). -/
def Obligations.EveryWellFormedFrameEncodesOneInstruction : Prop :=
  ∀ f : Frame, f.wf = true →
    ∃ i : Instr, i.wf = true ∧ encode i = f ∧ decode f.bytes = .ok (i, []) ∧
      ∀ j : Instr, j.wf = true → encode j = f → j = i

/-- A few words of rule R52's table and of spec/95_test_vectors.md, one of each class. -/
def Obligations.SpecWordsDecodeToTheirClass : Prop :=
  decodeTableWord 24 0x21FFFF = some (.load 2#3 0x7FFF#16) ∧
  decodeTableWord 24 0x34A4B4 = some (.loadUpd 3#3 0x1234#16) ∧
  decodeTableWord 24 0x29AAD5 = some (.loadAll 2#3 0x5555#16) ∧
  decodeTableWord 24 0x6ED7CD = some (.rsvd3 6#3 0xABCD#16) ∧
  decodeTableWord 24 0x708080 = some (.cmdInit 0x0000#16) ∧
  decodeTableWord 24 0x77FFFF = some (.cmdSave 0xFFFF#16) ∧
  decodeTableWord 24 0x788080 = some (.cmdRsv2 0x0000#16) ∧
  decodeTableWord 24 0x7FFFFF = some (.cmdRsv3 0xFFFF#16) ∧
  decodeTableWord 24 0x05FFFF = some (.loadUpd 0#3 0x7FFF#16) ∧
  decodeTableWord 24 0xFF8080 = none

/-- Rule R51: a frame class is selected by match and mask on the 24-bit word, with the command classes
tested first, by the lax decoder as the table has them and by the strict decoder with the
continuation bits added to both. The strict column is the spec's own inference from rule R72 and its
decision D5 (log entry 19). -/
def Obligations.ClassesAreSelectedByMatchAndMask : Prop :=
  ∀ (strict : Bool) (f : Frame),
    ((∃ v, decodeWith strict f.bytes = .ok (.cmdInit v, [])) ↔
      meetsRow strict 0xFC0000#24 0x700000#24 f.word = true) ∧
    ((∃ v, decodeWith strict f.bytes = .ok (.cmdSave v, [])) ↔
      meetsRow strict 0xFC0000#24 0x740000#24 f.word = true) ∧
    ((∃ v, decodeWith strict f.bytes = .ok (.cmdRsv2 v, [])) ↔
      meetsRow strict 0xFC0000#24 0x780000#24 f.word = true) ∧
    ((∃ v, decodeWith strict f.bytes = .ok (.cmdRsv3 v, [])) ↔
      meetsRow strict 0xFC0000#24 0x7C0000#24 f.word = true) ∧
    ((∃ ch v, decodeWith strict f.bytes = .ok (.load ch v, [])) ↔
      meetsRow strict 0x8C0000#24 0x000000#24 f.word = true ∧ f.word.extractLsb' 20 3 ≠ 7#3) ∧
    ((∃ ch v, decodeWith strict f.bytes = .ok (.loadUpd ch v, [])) ↔
      meetsRow strict 0x8C0000#24 0x040000#24 f.word = true ∧ f.word.extractLsb' 20 3 ≠ 7#3) ∧
    ((∃ ch v, decodeWith strict f.bytes = .ok (.loadAll ch v, [])) ↔
      meetsRow strict 0x8C0000#24 0x080000#24 f.word = true ∧ f.word.extractLsb' 20 3 ≠ 7#3) ∧
    ((∃ ch v, decodeWith strict f.bytes = .ok (.rsvd3 ch v, [])) ↔
      meetsRow strict 0x8C0000#24 0x0C0000#24 f.word = true ∧ f.word.extractLsb' 20 3 ≠ 7#3)

/-- Decoding at a frame boundary is total and rejects by name: too few bytes, a continuation byte first
(rules R55, R68), and, for the strict decoder alone, a sync byte among the continuation bytes, which
is the spec's own decision D5 (rule R72, log entry 19). -/
def Obligations.DecodingRejectsByName : Prop :=
  ∀ (strict : Bool) (bs : List Byte),
    (decodeWith strict bs = .error .incomplete ↔ bs.length < 3) ∧
    (∀ b, decodeWith strict bs = .error (.notSync b) ↔
      3 ≤ bs.length ∧ bs.head? = some b ∧ b.getLsbD 7 = true) ∧
    (decodeWith strict bs = .error .badContinuation ↔
      strict = true ∧ ∃ b0 b1 b2 rest, bs = b0 :: b1 :: b2 :: rest ∧ b0.getLsbD 7 = false ∧
        (b1.getLsbD 7 = false ∨ b2.getLsbD 7 = false))

/-! ## The decoder (spec/41_codec_decode.md) -/

/-- Rules R68 to R71: the lax decoder's transitions, from every state on every byte, with the value
assembled from the low seven bits of the continuation bytes. The value assembled when byte1 or byte2
has bit 7 clear is the spec's own decision D4 (log entry 4). -/
def Obligations.LaxDecoderTransitions : Prop :=
  ∀ b b0 b1 : Byte,
    (b.getLsbD 7 = true → decodeStep false .awaitSync b = (.awaitSync, none)) ∧
    (b.getLsbD 7 = false → decodeStep false .awaitSync b = (.haveFirst b, none)) ∧
    decodeStep false (.haveFirst b0) b = (.haveSecond b0 b, none) ∧
    decodeStep false (.haveSecond b0 b1) b =
      (.awaitSync,
        some
          { channel := b0.extractLsb' 4 3
            mode := b0.extractLsb' 2 2
            value := b0.extractLsb' 0 2 ++ b1.extractLsb' 0 7 ++ b.extractLsb' 0 7 })

/-- Rule R72: the strict decoder is the lax one in AwaitSync and on continuation bytes; a sync byte in
the two other states becomes the new byte0 and nothing is emitted; so it never emits a Packet on a
non-conforming byte and never holds one as byte1; and on well-formed frames the two decoders emit
the same Packets. The strict decoder is the spec's own decision D5 (log entry 19). -/
def Obligations.StrictDecoderRejectsAndResyncs : Prop :=
  (∀ b b0 b1 : Byte,
    decodeStep true .awaitSync b = decodeStep false .awaitSync b ∧
    (b.getLsbD 7 = true →
      decodeStep true (.haveFirst b0) b = decodeStep false (.haveFirst b0) b ∧
      decodeStep true (.haveSecond b0 b1) b = decodeStep false (.haveSecond b0 b1) b) ∧
    (b.getLsbD 7 = false →
      decodeStep true (.haveFirst b0) b = (.haveFirst b, none) ∧
      decodeStep true (.haveSecond b0 b1) b = (.haveFirst b, none))) ∧
  (∀ (rx rx' : RxState) (b : Byte) (p : Packet),
    decodeStep true rx b = (rx', some p) → b.getLsbD 7 = true) ∧
  (∀ (rx : RxState) (b b0 b1 : Byte),
    (decodeStep true rx b).1 = .haveSecond b0 b1 → b1.getLsbD 7 = true) ∧
  (∀ fs : List Frame, (∀ f ∈ fs, f.wf = true) →
    decodeRun true .awaitSync (fs.flatMap Frame.bytes) =
      decodeRun false .awaitSync (fs.flatMap Frame.bytes))

/-- Rule R67: RX_BYTE is a no-op with the link down; else it makes one decoder step and dispatches the
Packet that completes, if one does. That the dispatch belongs to the same step is the spec's own
decision D7 (log entry 19). -/
def Obligations.ReceiveByteStepsTheDecoder : Prop :=
  ∀ (b : Byte) (s : State),
    (s.linkUp = false → perform (.rxByte b) s = .next s) ∧
    (s.linkUp = true → ∀ rx, decodeStep s.params.strictCont s.rxState b = (rx, none) →
      perform (.rxByte b) s = .next { s with rxState := rx }) ∧
    (s.linkUp = true → ∀ rx p, decodeStep s.params.strictCont s.rxState b = (rx, some p) →
      perform (.rxByte b) s = exec (classify p) { s with rxState := rx })

/-- Rule R73: a drain is its bytes received one by one; the empty drain changes nothing; a stream may be
split across two drains anywhere; and n bytes emit at most (n + 2) / 3 Packets. The last two clauses
are the spec's own inference from the fold (log entry 19). -/
def Obligations.DrainIsAFoldAndSplitsAnywhere : Prop :=
  (∀ s : State, perform (.drain []) s = .next s) ∧
  (∀ (b : Byte) (bs : List Byte) (s : State),
    perform (.drain (b :: bs)) s = andThen (perform (.rxByte b) s) (perform (.drain bs))) ∧
  (∀ (xs ys : List Byte) (s : State),
    perform (.drain (xs ++ ys)) s = andThen (perform (.drain xs) s) (perform (.drain ys))) ∧
  (∀ (strict : Bool) (rx : RxState) (bs : List Byte),
    (decodeRun strict rx bs).2.length ≤ (bs.length + 2) / 3)

/-- Rule R74: with the link down the receiving operations change nothing, so a partial frame is still
held when the link comes back. That the partial frame is kept is the spec's own decision D6 (log
entry 19). -/
def Obligations.LinkDownReceivesNothing : Prop :=
  ∀ (b : Byte) (bs : List Byte) (s : State), s.linkUp = false →
    perform (.rxByte b) s = .next s ∧ perform (.drain bs) s = .next s ∧
    performAll [.drain bs, .rxByte b, .linkSet true] s = .next { s with linkUp := true }

/-- Rule R75: the three bytes of every encoding give its Packet after the third byte and none before, from
AwaitSync back to AwaitSync, with either decoder; and so does a stream of frames. -/
def Obligations.EncodedFramesRoundTrip : Prop :=
  (∀ (strict : Bool) (value channel mode : Nat), value < 65536 → channel < 8 → mode < 4 →
    let f := encodeFields value channel mode
    (decodeRun strict .awaitSync [f.byte0, f.byte1]).2 = [] ∧
    decodeRun strict .awaitSync f.bytes =
      (.awaitSync,
        [{ channel := BitVec.ofNat 3 channel
           mode := BitVec.ofNat 2 mode
           value := BitVec.ofNat 16 value }])) ∧
  (∀ (strict : Bool) (ps : List Packet), decodeRun strict .awaitSync (wire ps) = (.awaitSync, ps))

/-- Rule R76: recovery of the lax decoder from any state. The spec marks it as its own inference, "from
rules R68 to R71" (log entry 19). -/
def Obligations.LaxDecoderRecoversFromAnyState : Prop :=
  ∀ (p : Packet) (ps : List Packet) (b0 b1 : Byte),
    let f := encodePacket p
    decodeRun false .awaitSync (f.bytes ++ wire ps) = (.awaitSync, p :: ps) ∧
    decodeRun false (.haveFirst b0) (f.bytes ++ wire ps) =
      (.awaitSync, assemble b0 f.byte0 f.byte1 :: ps) ∧
    decodeRun false (.haveSecond b0 b1) (f.bytes ++ wire ps) =
      (.awaitSync, assemble b0 b1 f.byte0 :: ps) ∧
    (decodeRun false (.haveFirst b0) f.bytes).1 = .awaitSync ∧
    (decodeRun false (.haveSecond b0 b1) f.bytes).1 = .awaitSync

/-- Rule R77: one substituted byte `x` in the frame of `p`, between the frames of `ps` and of `qs`, with
either decoder. The spec marks it as its own inference, "from rules R68 to R72" (log entry 19). -/
def Obligations.OneSubstitutedByteSpoilsOneFrame : Prop :=
  ∀ (ps qs : List Packet) (p : Packet) (x : Byte),
    let f := encodePacket p
    (∀ strict : Bool, x.getLsbD 7 = true →
      (decodeRun strict .awaitSync (wire ps ++ [x, f.byte1, f.byte2] ++ wire qs)).2 = ps ++ qs) ∧
    (∀ strict : Bool, x.getLsbD 7 = false →
      (decodeRun strict .awaitSync (wire ps ++ [x, f.byte1, f.byte2] ++ wire qs)).2 =
        ps ++ [assemble x f.byte1 f.byte2] ++ qs ∧
      (x ≠ f.byte0 → assemble x f.byte1 f.byte2 ≠ p)) ∧
    ((decodeRun false .awaitSync (wire ps ++ [f.byte0, x, f.byte2] ++ wire qs)).2 =
      ps ++ [assemble f.byte0 x f.byte2] ++ qs) ∧
    ((decodeRun false .awaitSync (wire ps ++ [f.byte0, f.byte1, x] ++ wire qs)).2 =
      ps ++ [assemble f.byte0 f.byte1 x] ++ qs) ∧
    (assemble f.byte0 x f.byte2 = p ↔ x.extractLsb' 0 7 = f.byte1.extractLsb' 0 7) ∧
    (assemble f.byte0 f.byte1 x = p ↔ x.extractLsb' 0 7 = f.byte2.extractLsb' 0 7) ∧
    (x.getLsbD 7 = true →
      (decodeRun true .awaitSync (wire ps ++ [f.byte0, x, f.byte2] ++ wire qs)).2 =
        ps ++ [assemble f.byte0 x f.byte2] ++ qs ∧
      (decodeRun true .awaitSync (wire ps ++ [f.byte0, f.byte1, x] ++ wire qs)).2 =
        ps ++ [assemble f.byte0 f.byte1 x] ++ qs) ∧
    (x.getLsbD 7 = false →
      (decodeRun true .awaitSync (wire ps ++ [f.byte0, x, f.byte2] ++ wire qs)).2 = ps ++ qs ∧
      (decodeRun true .awaitSync (wire ps ++ [f.byte0, f.byte1, x] ++ wire qs)).2 = ps ++ qs)

/-- Rule R78: one deleted byte with the lax decoder; a deleted byte1 or byte2 costs the next frame too.
The spec marks it as its own inference, "from rules R68 to R71" (log entry 19). -/
def Obligations.OneDeletedByteLaxDecoder : Prop :=
  ∀ (ps qs : List Packet) (p q : Packet) (b : Byte),
    let f := encodePacket p
    let g := encodePacket q
    (decodeRun false .awaitSync (wire ps ++ [f.byte1, f.byte2] ++ wire qs) =
      (.awaitSync, ps ++ qs)) ∧
    (decodeRun false .awaitSync (wire ps ++ [f.byte0, f.byte2] ++ g.bytes ++ wire qs) =
      (.awaitSync, ps ++ [assemble f.byte0 f.byte2 g.byte0] ++ qs)) ∧
    (decodeRun false .awaitSync (wire ps ++ [f.byte0, f.byte1] ++ g.bytes ++ wire qs) =
      (.awaitSync, ps ++ [assemble f.byte0 f.byte1 g.byte0] ++ qs)) ∧
    ((assemble f.byte0 f.byte2 g.byte0).channel = p.channel ∧
      (assemble f.byte0 f.byte2 g.byte0).mode = p.mode ∧
      (assemble f.byte0 f.byte1 g.byte0).channel = p.channel ∧
      (assemble f.byte0 f.byte1 g.byte0).mode = p.mode) ∧
    (decodeRun false .awaitSync (wire ps ++ [f.byte0, f.byte2]) =
      (.haveSecond f.byte0 f.byte2, ps)) ∧
    (decodeRun false .awaitSync (wire ps ++ [f.byte0, f.byte1]) =
      (.haveSecond f.byte0 f.byte1, ps)) ∧
    (decodeStep false (.haveSecond f.byte0 f.byte2) b).2 = some (assemble f.byte0 f.byte2 b) ∧
    (decodeStep false (.haveSecond f.byte0 f.byte1) b).2 = some (assemble f.byte0 f.byte1 b)

/-- Rule R79: one inserted byte with the lax decoder; only the one frame is affected. The spec marks it
as its own inference, "from rules R68 to R71" (log entry 19). -/
def Obligations.OneInsertedByteLaxDecoder : Prop :=
  ∀ (ps qs : List Packet) (p : Packet) (x : Byte),
    let f := encodePacket p
    (x.getLsbD 7 = true →
      decodeRun false .awaitSync (wire ps ++ [x] ++ f.bytes ++ wire qs) =
        (.awaitSync, ps ++ [p] ++ qs)) ∧
    (x.getLsbD 7 = false →
      decodeRun false .awaitSync (wire ps ++ [x] ++ f.bytes ++ wire qs) =
        (.awaitSync, ps ++ [assemble x f.byte0 f.byte1] ++ qs)) ∧
    (decodeRun false .awaitSync (wire ps ++ [f.byte0, x, f.byte1, f.byte2] ++ wire qs) =
      (.awaitSync, ps ++ [assemble f.byte0 x f.byte1] ++ qs)) ∧
    (decodeRun false .awaitSync (wire ps ++ [f.byte0, f.byte1, x, f.byte2] ++ wire qs) =
      (.awaitSync, ps ++ [assemble f.byte0 f.byte1 x] ++ qs)) ∧
    (x.extractLsb' 0 7 = f.byte2.extractLsb' 0 7 → assemble f.byte0 f.byte1 x = p)

/-- Rule R80: recovery, one deleted byte and one inserted byte with the strict decoder; at most the one
frame is affected. The spec marks it as its own inference, "from rules R68, R69 and R72" (log entry
19). -/
def Obligations.StrictDecoderBoundsTheDamage : Prop :=
  ∀ (ps qs : List Packet) (p : Packet) (x b0 b1 : Byte),
    let f := encodePacket p
    (decodeRun true (.haveFirst b0) (wire ps)).2 = ps ∧
    (decodeRun true (.haveSecond b0 b1) (wire ps)).2 = ps ∧
    (decodeRun true .awaitSync (wire ps ++ [f.byte1, f.byte2] ++ wire qs)).2 = ps ++ qs ∧
    (decodeRun true .awaitSync (wire ps ++ [f.byte0, f.byte2] ++ wire qs)).2 = ps ++ qs ∧
    (decodeRun true .awaitSync (wire ps ++ [f.byte0, f.byte1] ++ wire qs)).2 = ps ++ qs ∧
    (x.getLsbD 7 = false →
      (decodeRun true .awaitSync (wire ps ++ [x] ++ f.bytes ++ wire qs)).2 = ps ++ [p] ++ qs ∧
      (decodeRun true .awaitSync (wire ps ++ [f.byte0, x, f.byte1, f.byte2] ++ wire qs)).2 =
        ps ++ [assemble x f.byte1 f.byte2] ++ qs ∧
      (decodeRun true .awaitSync (wire ps ++ [f.byte0, f.byte1, x, f.byte2] ++ wire qs)).2 =
        ps ++ qs) ∧
    (x.getLsbD 7 = true →
      (decodeRun true .awaitSync (wire ps ++ [x] ++ f.bytes ++ wire qs)).2 = ps ++ [p] ++ qs ∧
      (decodeRun true .awaitSync (wire ps ++ [f.byte0, x, f.byte1, f.byte2] ++ wire qs)).2 =
        ps ++ [assemble f.byte0 x f.byte1] ++ qs ∧
      (decodeRun true .awaitSync (wire ps ++ [f.byte0, f.byte1, x, f.byte2] ++ wire qs)).2 =
        ps ++ [assemble f.byte0 f.byte1 x] ++ qs)

/-! ## SEND and the link (spec/40_codec_encode.md, spec/60_exceptions.md) -/

/-- Rules R63, R65: SEND with the link up masks, writes one frame, records the value unless the channel
is 7, sets `last`, echoes, and changes nothing else. The exception of channel 7, the masked fields
in `last` and the absence of ChanUpdate are the spec's own decisions D8, D9, D26 (log entry 19). -/
def Obligations.SendWritesRecordsAndEchoes : Prop :=
  ∀ (value channel mode : Nat) (s : State), s.linkUp = true →
    let v : U16 := BitVec.ofNat 16 value
    let c : Channel := BitVec.ofNat 3 channel
    let m : Mode := BitVec.ofNat 2 mode
    perform (.send value channel mode) s = .next
      { s with
        txStream := s.txStream ++ (encodeFields value channel mode).bytes
        tbl := if c = 7#3 then s.tbl else s.tbl.set c.toNat (some v) c.isLt
        last := some { channel := c, mode := m, value := v }
        events := s.events ++ [.echo v c m] }

/-- Rule R64: SEND with the link down changes nothing. -/
def Obligations.SendWithLinkDownIsANoOp : Prop :=
  ∀ (value channel mode : Nat) (s : State), s.linkUp = false →
    perform (.send value channel mode) s = .next s

/-- Rule R122: LINK_SET writes `link_up` and nothing else; with the link down SEND, RX_BYTE and DRAIN
change nothing and a tick only moves `current`; the operations that do not use the transport do the
same whatever the link state. What is kept and that the tick still steps are the spec's own
decisions D6 and D18 (log entry 19). -/
def Obligations.LinkSetAndTheEffectsOfALinkDown : Prop :=
  (∀ (u : Bool) (s : State), perform (.linkSet u) s = .next { s with linkUp := u }) ∧
  (∀ (v c m : Nat) (b : Byte) (bs : List Byte) (s : State), s.linkUp = false →
    perform (.send v c m) s = .next s ∧ perform (.rxByte b) s = .next s ∧
    perform (.drain bs) s = .next s) ∧
  (∀ (axes : Vector Bool 4) (s t : State), s.linkUp = false →
    perform (.moveTick axes) s = .next t →
    t.txStream = s.txStream ∧ t.events = s.events ∧ t.tbl = s.tbl ∧ t.last = s.last) ∧
  (∀ (r : Request) (u : Bool) (s : State),
    (r = .opInit ∨ r = .opSave ∨ (∃ c, r = .tblRead c) ∨ ∃ a t, r = .setTarget a t) →
    perform r { s with linkUp := u } = andThen (perform r s) fun t => .next { t with linkUp := u }) ∧
  (∀ (u : Bool) (s : State), perform .reset { s with linkUp := u } = perform .reset s)

/-! ## Reset (spec/10_state.md, spec/70_reset_and_hazards.md) -/

/-- Rule R133: RESET sets every state element of the unit to its reset value, sends nothing, raises
nothing, and leaves every axis on target, so that a tick right after it sends nothing. All values
but the unknown table entries are the spec's own decisions D9, D17, D19 (log entry 19). -/
def Obligations.ResetSetsEveryElement : Prop :=
  ∀ s : State, ∃ t : State, perform .reset s = .next t ∧
    t.rxState = .awaitSync ∧ (∀ c, t.tblAt c = none) ∧ t.last = none ∧
    (∀ a : Dac, s.params.isAxis[a] = true →
      t.current[a] = s.params.resetSetpoint[a] ∧ t.target[a] = s.params.resetSetpoint[a] ∧
      t.onTarget a = true) ∧
    t.linkUp = false ∧ t.txStream = [] ∧ t.events = [] ∧
    ∀ (axes : Vector Bool 4) (up : Bool), axesOnly s.params axes = true →
      ∃ u, perform (.moveTick axes) { t with linkUp := up } = .next u ∧ u.txStream = [] ∧
        u.events = []

/-- Rule R134: the state after RESET is, in every element of the unit, the state after power-on; and the
far end is not reset with the unit. The first is the spec's own decision D19 (log entry 19). -/
def Obligations.PowerOnIsResetAndFarEndIsKept : Prop :=
  ∀ s : State, ∃ t : State, perform .reset s = .next t ∧
    (let p := State.powerOn s.params
     t.rxState = p.rxState ∧ t.tbl = p.tbl ∧ t.last = p.last ∧ t.current = p.current ∧
     t.target = p.target ∧ t.linkUp = p.linkUp ∧ t.txStream = p.txStream ∧ t.events = p.events) ∧
    t.farEnd.reg = s.farEnd.reg ∧ t.farEnd.out = s.farEnd.out ∧ t.farEnd.rx = s.farEnd.rx ∧
    t.farEnd.eeprom = s.farEnd.eeprom ∧ t.farEnd.feedback = s.farEnd.feedback

/-- Rule R29 with the parameters of rule R8: the machine right after reset. All values but the unknown
table entries and the step size are the spec's own decisions D5, D9, D11, D17, D19 (log entry 19). -/
def Obligations.ResetStateHoldsTheStatedValues : Prop :=
  State.reset.rxState = .awaitSync ∧ (∀ c, State.reset.tblAt c = none) ∧ State.reset.last = none ∧
  axesOf State.reset.params = [0, 1] ∧ State.reset.params.stepSize.val = 255 ∧
  State.reset.params.strictCont = false ∧
  (∀ a : Dac, a ∈ axesOf State.reset.params →
    State.reset.current[a] = 0#16 ∧ State.reset.target[a] = 0#16) ∧
  State.reset.linkUp = false ∧ State.reset.txStream = [] ∧ State.reset.events = []

/-- What the model says of its own fields at RESET (log entries 1, 2, 3, 11): the results are cleared
with the histories, the line's position is that of the emptied stream, and the parameters, the
operations still to be served and the bytes the DIM has sent stay. -/
def Obligations.ResetOfTheModelsOwnFields : Prop :=
  ∀ s : State, ∃ t : State, perform .reset s = .next t ∧
    t.results = [] ∧ t.params = s.params ∧ t.requests = s.requests ∧ t.farEnd.taken = 0 ∧
    t.farEnd.sent = s.farEnd.sent ∧ t.farEnd.draws = s.farEnd.draws

/-! ## The Move Controller (spec/43_move_controller.md) -/

/-- Rule R94: SET_TARGET overwrites the target of one axis and changes nothing else. -/
def Obligations.SetTargetOverwritesOneTarget : Prop :=
  ∀ (a : Dac) (t : U16) (s : State), s.params.isAxis[a] = true →
    perform (.setTarget a t) s = .next { s with target := s.target.set a.val t a.isLt }

/-- The model's choice of log entry 14: an address outside `AXES` is no argument of the move operations,
and is refused by name. -/
def Obligations.AddressesOutsideAxesAreRefused : Prop :=
  ∀ (a : Dac) (s : State), s.params.isAxis[a] = false →
    (∀ t, perform (.setTarget a t) s = .refused .notAnAxis) ∧
    (∀ axes : Vector Bool 4, axes[a] = true →
      perform (.moveTick axes) s = .refused .notAnAxis) ∧
    (∀ targets : Vector (Option U16) 4, targets[a] ≠ none →
      perform (.moveToTarget targets) s = .refused .notAnAxis)

/-- Rules R95, R96: the slew function is the one of the pseudocode, its result lies between its
arguments so that nothing wraps, a distance above the step is reduced by exactly the step, and a
distance of at most the step is closed. The properties are the spec's own inference from the
pseudocode; the range of the step size is its decision D16 (log entry 19). -/
def Obligations.SlewStepIsLimitedAndNeverOvershoots : Prop :=
  ∀ (step : StepSize) (cur tgt : U16),
    let c := cur.toNat
    let t := tgt.toNat
    let n := (slew step cur tgt).toNat
    let dist (x y : Nat) : Nat := max x y - min x y
    n = (if t > c then c + min step.val (t - c)
         else if t < c then c - min step.val (c - t) else c) ∧
    min c t ≤ n ∧ n ≤ max c t ∧
    (dist t c > step.val → dist n c = step.val ∧ dist t n = dist t c - step.val) ∧
    (dist t c ≤ step.val → slew step cur tgt = tgt) ∧
    (dist t c = 0 → slew step cur tgt = cur)

/-- Rules R97 to R101: MOVE_TICK on a subset of `AXES` completes in every state, with the link up or
down, and does what the pseudocode of rule R98 does read line by line: the steps in ascending order,
the frames with their modes by count and index, the result taken after the steps. The set of axes,
the order, the contiguity, the result and the link down are the spec's own decisions D12, D13, D14,
D15, D18 (log entry 19). -/
def Obligations.MoveTickIsThePseudocode : Prop :=
  ∀ (axes : Vector Bool 4) (s : State), axesOnly s.params axes = true →
    perform (.moveTick axes) s = .next (tickByRule axes s)

/-- Rule R106: the frames of one tick with the link up. With N moved axes there are N frames: none, one
of mode 1, or N - 1 of mode 0 and then one of mode 2; each names a moved axis and carries its new
value, in ascending address order. The spec marks it as its own inference, "from rules R97 and R98",
and the order as its decision D13 (log entry 19). -/
def Obligations.TickFramesAreAtomic : Prop :=
  ∀ (axes : Vector Bool 4) (s : State), s.linkUp = true → axesOnly s.params axes = true →
    ∃ (t : State) (ps : List Packet),
      perform (.moveTick axes) s = .next t ∧ t.txStream = s.txStream ++ wire ps ∧
      ps.length = (s.movedAxes axes).length ∧
      ps.map (·.channel) = (s.movedAxes axes).map dacChannel ∧
      ps.map (·.value) = (s.movedAxes axes).map (fun a => t.current[a]) ∧
      (ps.length = 1 → ps.map (·.mode) = [1#2]) ∧
      (2 ≤ ps.length → ps.map (·.mode) = List.replicate (ps.length - 1) 0#2 ++ [2#2])

/-- Rule R99: with the link down a tick makes its steps and returns its result, and sends nothing: it
writes `current` and the results and nothing else. That the step still runs is the spec's own
decision D18 (log entry 19). -/
def Obligations.TickWithLinkDownMovesUnseen : Prop :=
  ∀ (axes : Vector Bool 4) (s : State), s.linkUp = false → axesOnly s.params axes = true →
    ∃ cur : Vector U16 4,
      (∀ a : Dac, cur[a] =
        if axes[a] = true then slew s.params.stepSize s.current[a] s.target[a] else s.current[a]) ∧
      perform (.moveTick axes) s = .next
        { s with
          current := cur
          results := s.results ++
            [.moving ((axesOf s.params).any fun a => axes[a] && (cur[a] != s.target[a]))] }

/-- Rule R103: MOVE_TO_TARGET is SET_TARGET for each entry of the map, in any order, and then MOVE_TICK
over the map's domain, as one operation. That the axes stepped are the map's is the spec's own
decision D12 (log entry 19). -/
def Obligations.MoveToTargetIsTargetsThenTick : Prop :=
  ∀ (targets : Vector (Option U16) 4) (entries : List (Dac × U16)) (s : State),
    axesOnly s.params (domainOf targets) = true →
    (entries.map Prod.fst).Nodup →
    (∀ (a : Dac) (t : U16), (a, t) ∈ entries ↔ targets[a] = some t) →
    perform (.moveToTarget targets) s =
      performAll (entries.map (fun e => .setTarget e.1 e.2) ++ [.moveTick (domainOf targets)]) s

/-- Rule R102: the transitions of an axis between OnTarget and Moving, and that an axis on target causes
no frame. With the link down the step still runs by the spec's own decision D18 (rule R99, log entry
19). -/
def Obligations.AxisStateMachine : Prop :=
  ∀ (a : Dac) (s : State), s.params.isAxis[a] = true →
    (∀ t, ∃ u, perform (.setTarget a t) s = .next u ∧ (u.moving a = true ↔ t ≠ s.current[a])) ∧
    (∀ axes : Vector Bool 4, axesOnly s.params axes = true → axes[a] = true →
      ∃ u, perform (.moveTick axes) s = .next u ∧
        (u.moving a = true ↔
          s.params.stepSize.val < max s.current[a].toNat s.target[a].toNat -
            min s.current[a].toNat s.target[a].toNat) ∧
        (s.onTarget a = true → u.current[a] = s.current[a] ∧
          ∃ ps : List Packet, u.txStream = s.txStream ++ wire ps ∧
            ∀ p ∈ ps, p.channel ≠ dacChannel a))

/-- Rule R105: an axis in the set of every tick, its target not written meanwhile, is Moving after fewer
than ceil(distance / step) ticks and OnTarget from that many on; the ticks complete, and their sets
may differ in the other axes. The spec marks it as its own inference, "from rule R96" (log entry
19). -/
def Obligations.AxisConvergesInCeilDistanceOverStepTicks : Prop :=
  ∀ (a : Dac) (sets : List (Vector Bool 4)) (s : State), s.params.isAxis[a] = true →
    (∀ S ∈ sets, axesOnly s.params S = true ∧ S[a] = true) →
    let dist := max s.current[a].toNat s.target[a].toNat - min s.current[a].toNat s.target[a].toNat
    let need := (dist + s.params.stepSize.val - 1) / s.params.stepSize.val
    ∃ t, performAll (sets.map .moveTick) s = .next t ∧
      (t.moving a = true ↔ sets.length < need) ∧ (t.onTarget a = true ↔ need ≤ sets.length)

/-- The Move state is the Move Controller's alone (rules R19, R141): receiving bytes, sending frames,
commands, table reads and the line leave `current` and `target` as they are. -/
def Obligations.MoveStateIsWrittenByMovesAndResetOnly : Prop :=
  ∀ (r : Request) (s t : State), perform r s = .next t →
    (∀ axes, r ≠ .moveTick axes) → (∀ m, r ≠ .moveToTarget m) → r ≠ .reset →
    t.current = s.current ∧ ((∀ a v, r ≠ .setTarget a v) → t.target = s.target)

/-! ## The far end (spec/44_far_end_dac.md) -/

/-- Rules R110, R111: LOAD and LOADUPD at a DAC address of the DIM; nothing else of the DIM changes. -/
def Obligations.FarEndLatchLoadsAndUpdates : Prop :=
  ∀ (a : Dac) (v : U16) (fe : FarEnd),
    let reg := fe.reg.set a.val (some v) a.isLt
    feAct (.load (dacChannel a) v) fe = { fe with reg := reg } ∧
    feAct (.loadUpd (dacChannel a) v) fe =
      { fe with reg := reg, out := fe.out.set a.val (some v) a.isLt }

/-- LOADALL at a DAC address of the DIM writes the register and then, in the same step, brings every
output to its register, so that a pending load of any channel is committed; nothing else of the DIM
changes. That "all channel outputs" are the four DAC channels is the spec's own decision D23 (log
entry 19). -/
def Obligations.FarEndLoadAllCommitsEveryRegister : Prop :=
  ∀ (a : Dac) (v : U16) (fe : FarEnd),
    let fe' := feAct (.loadAll (dacChannel a) v) fe
    fe'.reg[a] = some v ∧ (∀ k : Dac, k ≠ a → fe'.reg[k] = fe.reg[k]) ∧
    (∀ k : Dac, fe'.out[k] = fe'.reg[k]) ∧
    fe' = { fe with reg := fe'.reg, out := fe'.out }

/-- Where the spec leaves the DIM's action open (rules R113, R114, R117), what the model still keeps: the
bytes on the line, rule R15's invariant of the DIM's decoder, and, after RSVD3 at a DAC address, all but
the registers and the outputs. The rest is free (log entries 8, 17). And the frames the DIM sends of its
own for an ADC address: in every state, with any mode and value, one frame to the address is put behind
the bytes already on the line and nothing else changes; and, where the link is up, the unit's decoder at a
frame boundary and no other byte on the line, the unit records it when it arrives (rule R114, log entry
11). -/
def Obligations.FarEndOpenActionsAndItsReadings : Prop :=
  (∀ (i : Instr) (fe : FarEnd), i.wf = true →
    ((∃ c v, i = .rsvd3 c v) ∨ (∃ v, i = .cmdRsv2 v) ∨ (∃ v, i = .cmdRsv3 v) ∨
      dacOf i.packet.channel = none ∧ i.packet.channel ≠ cmdAddr) →
    (feAct i fe).taken = fe.taken ∧ (feAct i fe).sent = fe.sent ∧
    (holdsSync fe.rx = true → holdsSync (feAct i fe).rx = true) ∧
    ((∃ (a : Dac) (v : U16), i = .rsvd3 (dacChannel a) v) →
      (feAct i fe).rx = fe.rx ∧ (feAct i fe).eeprom = fe.eeprom ∧
      (feAct i fe).feedback = fe.feedback)) ∧
  (∀ (a : Adc) (m : Mode) (v : U16) (s : State),
    direction (adcChannel a) = .adcIn ∧
    perform (.dimReading a m v) s =
      .next
        { s with
          farEnd :=
            { s.farEnd with
              sent := s.farEnd.sent ++
                (encodePacket { channel := adcChannel a, mode := m, value := v }).bytes } }) ∧
  (∀ (a : Adc) (m : Mode) (v : U16) (s : State),
    s.linkUp = true → s.rxState = .awaitSync → s.farEnd.sent = [] →
    performAll [.dimReading a m v, .lineToUnit 3] s =
      .next
        { s with
          tbl := s.tbl.set (adcChannel a).toNat (some v) (adcChannel a).isLt
          events := s.events ++ [.chanUpdate (adcChannel a) v] })

/-- *Initialize* at the DIM (rule R115) loads the registers from the EEPROM; the value field is ignored
and the EEPROM keeps its values. The echo is exactly one frame for each of the addresses 0 to 3,
sent at once, carrying that address's EEPROM value: that count is the model's choice (log entry 10),
since entry U5 allows any finite sequence. The order, the modes, the values before a *Save* and the
outputs are left free (log entries 8, 9). -/
def Obligations.FarEndInitializeReloadsAndEchoes : Prop :=
  ∀ (v : U16) (fe : FarEnd),
    let fe' := feAct (.cmdInit v) fe
    (∀ a : Dac, fe'.reg[a] = some (fe.eepromValue a)) ∧
    (∃ ps : List Packet, fe'.sent = fe.sent ++ wire ps ∧
      (ps.map (·.channel)).Perm [0#3, 1#3, 2#3, 3#3] ∧
      ∀ p ∈ ps, ∀ a : Dac, p.channel = dacChannel a → p.value = fe.eepromValue a) ∧
    (∀ a : Dac, fe'.eepromValue a = fe.eepromValue a) ∧
    (∀ w : U16, feAct (.cmdInit w) fe = fe')

/-- *Save* at the DIM (rules R116, R92): the EEPROM value of every DAC channel becomes the one stored, and
nothing else of the DIM changes, so registers and outputs stay and nothing is sent back; the value field
is ignored; and a second *Save* in a row changes nothing. What is stored is a free function of the
registers and the outputs at that moment, the model's choice of log entry 9. -/
def Obligations.FarEndSaveIsIdempotent : Prop :=
  ∀ (v w : U16) (fe : FarEnd),
    let fe' := feAct (.cmdSave v) fe
    (∀ a : Dac, fe'.eepromValue a = Config.savedValue fe.reg fe.out a) ∧
    fe' = { fe with eeprom := fe'.eeprom } ∧
    feAct (.cmdSave w) fe = fe' ∧ feAct (.cmdSave w) fe' = fe'

/-- The model's choice of log entry 6 for the DIM's own power-up (rules R108, R134): the unit sees nothing
of it, registers and outputs become unknown, the bytes on the line stay, and the EEPROM keeps what was
saved, so that an *Initialize* after it loads and echoes the values one before it would (rule R115). That
this echo is exactly four frames, sent at once, is the model's choice of log entry 10. -/
def Obligations.DimPowerUpKeepsTheEeprom : Prop :=
  ∀ s : State, ∃ fe : FarEnd,
    perform .dimPowerUp s = .next { s with farEnd := fe } ∧
    fe.sent = s.farEnd.sent ∧ fe.taken = s.farEnd.taken ∧ fe.rx = .awaitSync ∧
    (∀ a : Dac, fe.reg[a] = none ∧ fe.out[a] = none ∧ fe.eepromValue a = s.farEnd.eepromValue a) ∧
    ∀ v : U16,
      (feAct (.cmdInit v) fe).reg = (feAct (.cmdInit v) s.farEnd).reg ∧
      ∃ ps : List Packet, (feAct (.cmdInit v) fe).sent = s.farEnd.sent ++ wire ps ∧
        (ps.map (·.channel)).Perm [0#3, 1#3, 2#3, 3#3] ∧
        ∀ p ∈ ps, ∀ a : Dac, p.channel = dacChannel a → p.value = s.farEnd.eepromValue a

/-- Rule R118, the atomic-update law across the link. The line passes the unit's bytes to the DIM
unchanged and in order, and both stand at a frame boundary. Then no byte before the tick's last
changes an output; the last byte brings every moved axis's output to its new value, in one step.
With several moved axes every other output takes its register, with a single one no other output
changes. The spec marks it as its own inference, "from rules R110 and R112" (log entry 19). -/
def Obligations.MovedOutputsUpdateOnTheSameEdge : Prop :=
  ∀ (axes : Vector Bool 4) (s : State), s.linkUp = true → axesOnly s.params axes = true →
    s.farEnd.rx = .awaitSync → s.farEnd.taken = s.txStream.length → s.movedAxes axes ≠ [] →
    let n := 3 * (s.movedAxes axes).length
    ∃ t, perform (.moveTick axes) s = .next t ∧
      (∀ k, k < n → (opLineToDim k t).farEnd.out = s.farEnd.out) ∧
      (∀ a ∈ s.movedAxes axes, (opLineToDim n t).farEnd.out[a] = some t.current[a]) ∧
      (∀ a : Dac, a ∉ s.movedAxes axes →
        (opLineToDim n t).farEnd.out[a] =
          if (s.movedAxes axes).length = 1 then s.farEnd.out[a] else s.farEnd.reg[a]) ∧
      (opLineToDim n t).farEnd.taken = t.txStream.length ∧
      (opLineToDim n t).farEnd.rx = .awaitSync

/-- The command sub-protocol end to end (rules R91, R115, R87), for every value of every free value: the
host sends INIT, the line passes it to the DIM, the DIM's echo comes back; the unit then knows the
EEPROM values of the four DAC channels, the Move state is untouched, and no CmdInit was raised here,
which is the spec's own inference (log entry 19). That the echo is four frames, sent at once, is the
model's choice of log entry 10, and the line that carries the bytes is the model's own (log entry 11). -/
def Obligations.InitializeRoundTripFillsTheTable : Prop :=
  ∀ (value : Nat) (s : State), s.linkUp = true → s.rxState = .awaitSync →
    s.farEnd.rx = .awaitSync → s.farEnd.taken = s.txStream.length → s.farEnd.sent = [] →
    ∃ t, performAll [.send value 7 0, .lineToDim 3, .lineToUnit 12] s = .next t ∧
      (∀ a : Dac, t.tblAt (dacChannel a) = some (s.farEnd.eepromValue a)) ∧
      (∀ a : Dac, t.farEnd.reg[a] = some (s.farEnd.eepromValue a)) ∧
      t.current = s.current ∧ t.target = s.target ∧ t.rxState = .awaitSync ∧
      ∃ es : List Event, t.events = s.events ++ es ∧ es.length = 5 ∧ Event.cmdInit ∉ es

/-! ## Whole-machine rules -/

/-- At reset both decoders are at a frame boundary, the line has passed nothing, and the histories agree
with the state: the two invariants below hold. The unit's AwaitSync and unknown `last` are the
spec's own decisions D19 and D9 (log entry 19); the DIM's decoder and the line's position at reset
are the model's choices (log entries 6, 11). -/
def Obligations.ResetMeetsBothInvariants : Prop := DecoderInv State.reset ∧ HistoryInv State.reset

/-- Rule R15's invariant, for both decoders, and the line passing no more than was written, are kept by
every step from every state that meets them. The spec marks the invariant as its own inference, "b0
is only ever written by rule R69 and rule R72" (log entry 19). For the DIM it rests on the model's
choices that a decoder state drawn after an unspecified Packet is one that rule R15 allows (log
entry 17) and that a power-up starts at AwaitSync (log entry 6); the line's position is the model's
own (log entry 11). -/
def Obligations.StepKeepsDecoderInvariant : Prop :=
  ∀ s t : State, DecoderInv s → step s = .next t → DecoderInv t

/-- Rules R16, R18, R22, R125 as one invariant of every step: `tx_stream` is always the frames echoed,
in order (so its length is a multiple of three and every group of three is well-formed), `last` the
last of them, every table entry the last value sent or received for its address, and entry 7 unknown
for ever. The length, the groups of three and entry 7 rest on the spec's own inference and on its
decisions D8, D9 (log entry 19). -/
def Obligations.StepKeepsHistoryInvariant : Prop :=
  ∀ s t : State, HistoryInv s → step s = .next t → HistoryInv t

/-- Rule R119: the unit raises nothing under any input. Every operation whose arguments are of the stated
types, in every state, has a next state; so does every well-formed instruction; and no step ever
faults. -/
def Obligations.EveryOperationCompletes : Prop :=
  (∀ (r : Request) (s : State), r.typed s.params = true → ∃ t, perform r s = .next t) ∧
  (∀ (i : Instr) (s : State), i.wf = true → ∃ t, exec i s = .next t) ∧
  (∀ s : State, (∀ r ∈ s.requests, r.typed s.params = true) → ∃ t, step s = .next t) ∧
  (∀ (s : State) (r : Fault), step s ≠ .fault r)

/-- Rule R13's histories are append-only, and the parameters are constants: no operation but RESET
removes a byte, an event or a result, and none changes a parameter. The results are the model's own
history (log entry 2), and the parameters stand in the state by the model's choice (log entry 3):
neither is an element of rule R13. -/
def Obligations.HistoriesGrowAndParametersStay : Prop :=
  ∀ (r : Request) (s t : State), perform r s = .next t →
    t.params = s.params ∧
    (r ≠ .reset →
      (∃ bs, t.txStream = s.txStream ++ bs) ∧ (∃ es, t.events = s.events ++ es) ∧
      (∃ rs, t.results = s.results ++ rs))

/-- Inbound and outbound operations touch disjoint state but for `tbl` and `events` (rule R43): receiving
writes neither `last` nor `tx_stream`, and sending and moving leave the decoder alone. -/
def Obligations.InboundAndOutboundAreSeparate : Prop :=
  ∀ (r : Request) (s t : State), perform r s = .next t →
    ((∃ b, r = .rxByte b) ∨ (∃ bs, r = .drain bs) →
      t.last = s.last ∧ t.txStream = s.txStream ∧ t.current = s.current ∧ t.target = s.target ∧
      t.linkUp = s.linkUp ∧ t.farEnd = s.farEnd) ∧
    ((∃ v c m, r = .send v c m) ∨ (∃ a v, r = .setTarget a v) ∨ (∃ axes, r = .moveTick axes) ∨
        (∃ m, r = .moveToTarget m) →
      t.rxState = s.rxState ∧ t.linkUp = s.linkUp ∧ t.farEnd = s.farEnd)
end

