-- ==== Sys2Proof/Laws/Codec.lean ====
section
/-! SUPPORT. The codec's small lemmas: the marker bits of an encoded frame, field assembly read forwards
and backwards, the frame classes and their Packets, one decoder step, and the decoder over a
concatenation. -/

namespace Sys2Proof

/-! ### Marker bits (rule R48) -/

@[simp] theorem isSync_byte0 (p : Packet) : isSync (encodePacket p).byte0 = true := by
  simp only [isSync, encodePacket, BitVec.getLsbD_append]; simp

@[simp] theorem isSync_byte1 (p : Packet) : isSync (encodePacket p).byte1 = false := by
  simp only [isSync, encodePacket, BitVec.getLsbD_append]; simp

@[simp] theorem isSync_byte2 (p : Packet) : isSync (encodePacket p).byte2 = false := by
  simp only [isSync, encodePacket, BitVec.getLsbD_append]; simp

theorem encodePacket_wf (p : Packet) : (encodePacket p).wf = true := by
  simp [Frame.wf]

/-! ### Field assembly (rules R49, R50) -/

@[simp] theorem assemble_encodePacket (p : Packet) :
    assemble (encodePacket p).byte0 (encodePacket p).byte1 (encodePacket p).byte2 = p := by
  obtain ⟨c, m, v⟩ := p
  simp only [assemble, encodePacket, Packet.mk.injEq]
  refine ⟨?_, ?_, ?_⟩ <;>
  · apply BitVec.eq_of_getLsbD_eq
    intro i hi
    simp only [BitVec.getLsbD_extractLsb', BitVec.getLsbD_append]
    have : i < 16 := by omega
    interval_cases i <;> simp_all

theorem encodePacket_assemble (f : Frame) (h : f.wf = true) :
    encodePacket (assemble f.byte0 f.byte1 f.byte2) = f := by
  obtain ⟨b0, b1, b2⟩ := f
  simp only [Frame.wf, isSync, Bool.and_eq_true, Bool.not_eq_true', Bool.not_not] at h
  obtain ⟨⟨h0, h1⟩, h2⟩ := h
  simp only [encodePacket, assemble, Frame.mk.injEq]
  refine ⟨?_, ?_, ?_⟩ <;>
  · apply BitVec.eq_of_getLsbD_eq
    intro i hi
    simp only [BitVec.getLsbD_extractLsb', BitVec.getLsbD_append]
    interval_cases i <;> simp_all

/-! ### Frame classes (rule R52) -/

@[simp] theorem classify_packet (i : Instr) (h : i.wf = true) : classify i.packet = i := by
  cases i <;> simp_all [Instr.wf, Instr.packet, classify]

@[simp] theorem packet_classify (p : Packet) : (classify p).packet = p := by
  obtain ⟨c, m, v⟩ := p
  have hm : m = 0#2 ∨ m = 1#2 ∨ m = 2#2 ∨ m = 3#2 := by revert m; decide
  by_cases hc : c = cmdAddr <;> rcases hm with rfl | rfl | rfl | rfl <;>
    simp [classify, hc, Instr.packet]

theorem classify_wf (p : Packet) : (classify p).wf = true := by
  unfold classify
  split_ifs <;> simp_all [Instr.wf]

/-! ### One decoder step (rules R68 to R72) -/

/-- Everything one decoder step can do. -/
theorem decodeStep_cases (strict : Bool) (rx : RxState) (b : Byte) :
    (decodeStep strict rx b = (.awaitSync, none) ∧ rx = .awaitSync ∧ isSync b = false) ∨
    (decodeStep strict rx b = (.haveFirst b, none) ∧ isSync b = true ∧
      (rx = .awaitSync ∨ strict = true)) ∨
    (∃ b0, rx = .haveFirst b0 ∧ decodeStep strict rx b = (.haveSecond b0 b, none) ∧
      (strict && isSync b) = false) ∨
    (∃ b0 b1, rx = .haveSecond b0 b1 ∧
      decodeStep strict rx b = (.awaitSync, some (assemble b0 b1 b)) ∧
      (strict && isSync b) = false) := by
  cases rx <;> cases strict <;> cases hb : isSync b <;> simp [decodeStep, hb]

theorem decodeStep_sync (strict : Bool) (b : Byte) (h : isSync b = true) :
    decodeStep strict .awaitSync b = (.haveFirst b, none) := by simp [decodeStep, h]

theorem decodeStep_noise (strict : Bool) (b : Byte) (h : isSync b = false) :
    decodeStep strict .awaitSync b = (.awaitSync, none) := by simp [decodeStep, h]

theorem decodeStep_keeps_sync (strict : Bool) (rx : RxState) (b : Byte)
    (h : Machine.holdsSync rx = true) : Machine.holdsSync (decodeStep strict rx b).1 = true := by
  rcases decodeStep_cases strict rx b with ⟨e, _⟩ | ⟨e, hb, _⟩ | ⟨b0, rfl, e, _⟩ | ⟨b0, b1, rfl, e, _⟩ <;>
    simp_all [Machine.holdsSync]

/-! ### Decoding at a frame boundary -/

theorem decodeWith_three (strict : Bool) (b0 b1 b2 : Byte) (rest : List Byte) :
    decodeWith strict (b0 :: b1 :: b2 :: rest) =
      if !isSync b0 then .error (.notSync b0)
      else if strict && (isSync b1 || isSync b2) then .error .badContinuation
      else .ok (classify (assemble b0 b1 b2), rest) := rfl

/-! ### The decoder over a list -/

@[simp] theorem decodeRun_nil (strict : Bool) (rx : RxState) : decodeRun strict rx [] = (rx, []) := rfl

theorem decodeRun_cons (strict : Bool) (rx : RxState) (b : Byte) (bs : List Byte) :
    decodeRun strict rx (b :: bs) =
      ((decodeRun strict (decodeStep strict rx b).1 bs).1,
        (decodeStep strict rx b).2.toList ++ (decodeRun strict (decodeStep strict rx b).1 bs).2) := rfl

theorem decodeRun_append (strict : Bool) (rx : RxState) (xs ys : List Byte) :
    decodeRun strict rx (xs ++ ys) =
      ((decodeRun strict (decodeRun strict rx xs).1 ys).1,
        (decodeRun strict rx xs).2 ++ (decodeRun strict (decodeRun strict rx xs).1 ys).2) := by
  induction xs generalizing rx with
  | nil => simp
  | cons b bs ih => simp [decodeRun_cons, ih]

end Sys2Proof
end

