-- ==== Sys2Proof/Laws/State.lean ====
section
/-! SUPPORT. The projections of every update of State and of FarEnd: one lemma per field per update, so
that no proof unfolds a record update. -/

namespace Sys2Proof.Machine

/-! ### State.emitEv -/

@[simp] theorem State.emitEv_rxState (s : State) (e : Event) :
    (s.emitEv e).rxState = s.rxState := rfl

@[simp] theorem State.emitEv_tbl (s : State) (e : Event) :
    (s.emitEv e).tbl = s.tbl := rfl

@[simp] theorem State.emitEv_last (s : State) (e : Event) :
    (s.emitEv e).last = s.last := rfl

@[simp] theorem State.emitEv_current (s : State) (e : Event) :
    (s.emitEv e).current = s.current := rfl

@[simp] theorem State.emitEv_target (s : State) (e : Event) :
    (s.emitEv e).target = s.target := rfl

@[simp] theorem State.emitEv_linkUp (s : State) (e : Event) :
    (s.emitEv e).linkUp = s.linkUp := rfl

@[simp] theorem State.emitEv_txStream (s : State) (e : Event) :
    (s.emitEv e).txStream = s.txStream := rfl

@[simp] theorem State.emitEv_events (s : State) (e : Event) :
    (s.emitEv e).events = s.events ++ [e] := rfl

@[simp] theorem State.emitEv_results (s : State) (e : Event) :
    (s.emitEv e).results = s.results := rfl

@[simp] theorem State.emitEv_params (s : State) (e : Event) :
    (s.emitEv e).params = s.params := rfl

@[simp] theorem State.emitEv_farEnd (s : State) (e : Event) :
    (s.emitEv e).farEnd = s.farEnd := rfl

@[simp] theorem State.emitEv_requests (s : State) (e : Event) :
    (s.emitEv e).requests = s.requests := rfl

/-! ### State.emitTx -/

@[simp] theorem State.emitTx_rxState (s : State) (f : Frame) :
    (s.emitTx f).rxState = s.rxState := rfl

@[simp] theorem State.emitTx_tbl (s : State) (f : Frame) :
    (s.emitTx f).tbl = s.tbl := rfl

@[simp] theorem State.emitTx_last (s : State) (f : Frame) :
    (s.emitTx f).last = s.last := rfl

@[simp] theorem State.emitTx_current (s : State) (f : Frame) :
    (s.emitTx f).current = s.current := rfl

@[simp] theorem State.emitTx_target (s : State) (f : Frame) :
    (s.emitTx f).target = s.target := rfl

@[simp] theorem State.emitTx_linkUp (s : State) (f : Frame) :
    (s.emitTx f).linkUp = s.linkUp := rfl

@[simp] theorem State.emitTx_txStream (s : State) (f : Frame) :
    (s.emitTx f).txStream = s.txStream ++ f.bytes := rfl

@[simp] theorem State.emitTx_events (s : State) (f : Frame) :
    (s.emitTx f).events = s.events := rfl

@[simp] theorem State.emitTx_results (s : State) (f : Frame) :
    (s.emitTx f).results = s.results := rfl

@[simp] theorem State.emitTx_params (s : State) (f : Frame) :
    (s.emitTx f).params = s.params := rfl

@[simp] theorem State.emitTx_farEnd (s : State) (f : Frame) :
    (s.emitTx f).farEnd = s.farEnd := rfl

@[simp] theorem State.emitTx_requests (s : State) (f : Frame) :
    (s.emitTx f).requests = s.requests := rfl

/-! ### State.giveResult -/

@[simp] theorem State.giveResult_rxState (s : State) (r : Result) :
    (s.giveResult r).rxState = s.rxState := rfl

@[simp] theorem State.giveResult_tbl (s : State) (r : Result) :
    (s.giveResult r).tbl = s.tbl := rfl

@[simp] theorem State.giveResult_last (s : State) (r : Result) :
    (s.giveResult r).last = s.last := rfl

@[simp] theorem State.giveResult_current (s : State) (r : Result) :
    (s.giveResult r).current = s.current := rfl

@[simp] theorem State.giveResult_target (s : State) (r : Result) :
    (s.giveResult r).target = s.target := rfl

@[simp] theorem State.giveResult_linkUp (s : State) (r : Result) :
    (s.giveResult r).linkUp = s.linkUp := rfl

@[simp] theorem State.giveResult_txStream (s : State) (r : Result) :
    (s.giveResult r).txStream = s.txStream := rfl

@[simp] theorem State.giveResult_events (s : State) (r : Result) :
    (s.giveResult r).events = s.events := rfl

@[simp] theorem State.giveResult_results (s : State) (r : Result) :
    (s.giveResult r).results = s.results ++ [r] := rfl

@[simp] theorem State.giveResult_params (s : State) (r : Result) :
    (s.giveResult r).params = s.params := rfl

@[simp] theorem State.giveResult_farEnd (s : State) (r : Result) :
    (s.giveResult r).farEnd = s.farEnd := rfl

@[simp] theorem State.giveResult_requests (s : State) (r : Result) :
    (s.giveResult r).requests = s.requests := rfl

/-! ### State.setTbl -/

@[simp] theorem State.setTbl_rxState (s : State) (c : Channel) (v : U16) :
    (s.setTbl c v).rxState = s.rxState := by
  unfold State.setTbl; split <;> rfl

@[simp] theorem State.setTbl_last (s : State) (c : Channel) (v : U16) :
    (s.setTbl c v).last = s.last := by
  unfold State.setTbl; split <;> rfl

@[simp] theorem State.setTbl_current (s : State) (c : Channel) (v : U16) :
    (s.setTbl c v).current = s.current := by
  unfold State.setTbl; split <;> rfl

@[simp] theorem State.setTbl_target (s : State) (c : Channel) (v : U16) :
    (s.setTbl c v).target = s.target := by
  unfold State.setTbl; split <;> rfl

@[simp] theorem State.setTbl_linkUp (s : State) (c : Channel) (v : U16) :
    (s.setTbl c v).linkUp = s.linkUp := by
  unfold State.setTbl; split <;> rfl

@[simp] theorem State.setTbl_txStream (s : State) (c : Channel) (v : U16) :
    (s.setTbl c v).txStream = s.txStream := by
  unfold State.setTbl; split <;> rfl

@[simp] theorem State.setTbl_events (s : State) (c : Channel) (v : U16) :
    (s.setTbl c v).events = s.events := by
  unfold State.setTbl; split <;> rfl

@[simp] theorem State.setTbl_results (s : State) (c : Channel) (v : U16) :
    (s.setTbl c v).results = s.results := by
  unfold State.setTbl; split <;> rfl

@[simp] theorem State.setTbl_params (s : State) (c : Channel) (v : U16) :
    (s.setTbl c v).params = s.params := by
  unfold State.setTbl; split <;> rfl

@[simp] theorem State.setTbl_farEnd (s : State) (c : Channel) (v : U16) :
    (s.setTbl c v).farEnd = s.farEnd := by
  unfold State.setTbl; split <;> rfl

@[simp] theorem State.setTbl_requests (s : State) (c : Channel) (v : U16) :
    (s.setTbl c v).requests = s.requests := by
  unfold State.setTbl; split <;> rfl

theorem State.setTbl_tbl_of_ne (s : State) (c : Channel) (v : U16) (h : c ≠ cmdAddr) :
    (s.setTbl c v).tbl = s.tbl.set c.toNat (some v) c.isLt := by
  simp [State.setTbl, h]

@[simp] theorem State.setTbl_cmdAddr (s : State) (v : U16) : s.setTbl cmdAddr v = s := by
  simp [State.setTbl]

/-! ### State.recordReceived -/

@[simp] theorem State.recordReceived_rxState (s : State) (c : Channel) (v : U16) :
    (s.recordReceived c v).rxState = s.rxState := by
  simp [State.recordReceived]

@[simp] theorem State.recordReceived_tbl (s : State) (c : Channel) (v : U16) :
    (s.recordReceived c v).tbl = (s.setTbl c v).tbl := by
  simp [State.recordReceived]

@[simp] theorem State.recordReceived_last (s : State) (c : Channel) (v : U16) :
    (s.recordReceived c v).last = s.last := by
  simp [State.recordReceived]

@[simp] theorem State.recordReceived_current (s : State) (c : Channel) (v : U16) :
    (s.recordReceived c v).current = s.current := by
  simp [State.recordReceived]

@[simp] theorem State.recordReceived_target (s : State) (c : Channel) (v : U16) :
    (s.recordReceived c v).target = s.target := by
  simp [State.recordReceived]

@[simp] theorem State.recordReceived_linkUp (s : State) (c : Channel) (v : U16) :
    (s.recordReceived c v).linkUp = s.linkUp := by
  simp [State.recordReceived]

@[simp] theorem State.recordReceived_txStream (s : State) (c : Channel) (v : U16) :
    (s.recordReceived c v).txStream = s.txStream := by
  simp [State.recordReceived]

@[simp] theorem State.recordReceived_events (s : State) (c : Channel) (v : U16) :
    (s.recordReceived c v).events = s.events ++ [.chanUpdate c v] := by
  simp [State.recordReceived]

@[simp] theorem State.recordReceived_results (s : State) (c : Channel) (v : U16) :
    (s.recordReceived c v).results = s.results := by
  simp [State.recordReceived]

@[simp] theorem State.recordReceived_params (s : State) (c : Channel) (v : U16) :
    (s.recordReceived c v).params = s.params := by
  simp [State.recordReceived]

@[simp] theorem State.recordReceived_farEnd (s : State) (c : Channel) (v : U16) :
    (s.recordReceived c v).farEnd = s.farEnd := by
  simp [State.recordReceived]

@[simp] theorem State.recordReceived_requests (s : State) (c : Channel) (v : U16) :
    (s.recordReceived c v).requests = s.requests := by
  simp [State.recordReceived]

/-! ### State.sendFrame -/

@[simp] theorem State.sendFrame_rxState (s : State) (p : Packet) :
    (s.sendFrame p).rxState = s.rxState := by
  simp [State.sendFrame]

@[simp] theorem State.sendFrame_tbl (s : State) (p : Packet) :
    (s.sendFrame p).tbl = (s.setTbl p.channel p.value).tbl := by
  simp only [State.sendFrame, State.emitEv, State.setTbl, State.emitTx]; split <;> rfl

@[simp] theorem State.sendFrame_last (s : State) (p : Packet) :
    (s.sendFrame p).last = some p := by
  simp [State.sendFrame]

@[simp] theorem State.sendFrame_current (s : State) (p : Packet) :
    (s.sendFrame p).current = s.current := by
  simp [State.sendFrame]

@[simp] theorem State.sendFrame_target (s : State) (p : Packet) :
    (s.sendFrame p).target = s.target := by
  simp [State.sendFrame]

@[simp] theorem State.sendFrame_linkUp (s : State) (p : Packet) :
    (s.sendFrame p).linkUp = s.linkUp := by
  simp [State.sendFrame]

@[simp] theorem State.sendFrame_txStream (s : State) (p : Packet) :
    (s.sendFrame p).txStream = s.txStream ++ (encodePacket p).bytes := by
  simp [State.sendFrame]

@[simp] theorem State.sendFrame_events (s : State) (p : Packet) :
    (s.sendFrame p).events = s.events ++ [.echo p.value p.channel p.mode] := by
  simp [State.sendFrame]

@[simp] theorem State.sendFrame_results (s : State) (p : Packet) :
    (s.sendFrame p).results = s.results := by
  simp [State.sendFrame]

@[simp] theorem State.sendFrame_params (s : State) (p : Packet) :
    (s.sendFrame p).params = s.params := by
  simp [State.sendFrame]

@[simp] theorem State.sendFrame_farEnd (s : State) (p : Packet) :
    (s.sendFrame p).farEnd = s.farEnd := by
  simp [State.sendFrame]

@[simp] theorem State.sendFrame_requests (s : State) (p : Packet) :
    (s.sendFrame p).requests = s.requests := by
  simp [State.sendFrame]

/-! ### State.writeTarget -/

@[simp] theorem State.writeTarget_rxState (s : State) (a : Dac) (t : U16) :
    (s.writeTarget a t).rxState = s.rxState := rfl

@[simp] theorem State.writeTarget_tbl (s : State) (a : Dac) (t : U16) :
    (s.writeTarget a t).tbl = s.tbl := rfl

@[simp] theorem State.writeTarget_last (s : State) (a : Dac) (t : U16) :
    (s.writeTarget a t).last = s.last := rfl

@[simp] theorem State.writeTarget_current (s : State) (a : Dac) (t : U16) :
    (s.writeTarget a t).current = s.current := rfl

@[simp] theorem State.writeTarget_target (s : State) (a : Dac) (t : U16) :
    (s.writeTarget a t).target = s.target.set a.val t a.isLt := rfl

@[simp] theorem State.writeTarget_linkUp (s : State) (a : Dac) (t : U16) :
    (s.writeTarget a t).linkUp = s.linkUp := rfl

@[simp] theorem State.writeTarget_txStream (s : State) (a : Dac) (t : U16) :
    (s.writeTarget a t).txStream = s.txStream := rfl

@[simp] theorem State.writeTarget_events (s : State) (a : Dac) (t : U16) :
    (s.writeTarget a t).events = s.events := rfl

@[simp] theorem State.writeTarget_results (s : State) (a : Dac) (t : U16) :
    (s.writeTarget a t).results = s.results := rfl

@[simp] theorem State.writeTarget_params (s : State) (a : Dac) (t : U16) :
    (s.writeTarget a t).params = s.params := rfl

@[simp] theorem State.writeTarget_farEnd (s : State) (a : Dac) (t : U16) :
    (s.writeTarget a t).farEnd = s.farEnd := rfl

@[simp] theorem State.writeTarget_requests (s : State) (a : Dac) (t : U16) :
    (s.writeTarget a t).requests = s.requests := rfl

/-! ### State.writeTargets -/

@[simp] theorem State.writeTargets_rxState (s : State) (m : Vector (Option U16) 4) :
    (s.writeTargets m).rxState = s.rxState := rfl

@[simp] theorem State.writeTargets_tbl (s : State) (m : Vector (Option U16) 4) :
    (s.writeTargets m).tbl = s.tbl := rfl

@[simp] theorem State.writeTargets_last (s : State) (m : Vector (Option U16) 4) :
    (s.writeTargets m).last = s.last := rfl

@[simp] theorem State.writeTargets_current (s : State) (m : Vector (Option U16) 4) :
    (s.writeTargets m).current = s.current := rfl

@[simp] theorem State.writeTargets_target (s : State) (m : Vector (Option U16) 4) :
    (s.writeTargets m).target = quad fun a => (m[a]).getD s.target[a] := rfl

@[simp] theorem State.writeTargets_linkUp (s : State) (m : Vector (Option U16) 4) :
    (s.writeTargets m).linkUp = s.linkUp := rfl

@[simp] theorem State.writeTargets_txStream (s : State) (m : Vector (Option U16) 4) :
    (s.writeTargets m).txStream = s.txStream := rfl

@[simp] theorem State.writeTargets_events (s : State) (m : Vector (Option U16) 4) :
    (s.writeTargets m).events = s.events := rfl

@[simp] theorem State.writeTargets_results (s : State) (m : Vector (Option U16) 4) :
    (s.writeTargets m).results = s.results := rfl

@[simp] theorem State.writeTargets_params (s : State) (m : Vector (Option U16) 4) :
    (s.writeTargets m).params = s.params := rfl

@[simp] theorem State.writeTargets_farEnd (s : State) (m : Vector (Option U16) 4) :
    (s.writeTargets m).farEnd = s.farEnd := rfl

@[simp] theorem State.writeTargets_requests (s : State) (m : Vector (Option U16) 4) :
    (s.writeTargets m).requests = s.requests := rfl

/-! ### State.slewAxes -/

@[simp] theorem State.slewAxes_rxState (s : State) (axes : Vector Bool 4) :
    (s.slewAxes axes).rxState = s.rxState := rfl

@[simp] theorem State.slewAxes_tbl (s : State) (axes : Vector Bool 4) :
    (s.slewAxes axes).tbl = s.tbl := rfl

@[simp] theorem State.slewAxes_last (s : State) (axes : Vector Bool 4) :
    (s.slewAxes axes).last = s.last := rfl

@[simp] theorem State.slewAxes_target (s : State) (axes : Vector Bool 4) :
    (s.slewAxes axes).target = s.target := rfl

@[simp] theorem State.slewAxes_linkUp (s : State) (axes : Vector Bool 4) :
    (s.slewAxes axes).linkUp = s.linkUp := rfl

@[simp] theorem State.slewAxes_txStream (s : State) (axes : Vector Bool 4) :
    (s.slewAxes axes).txStream = s.txStream := rfl

@[simp] theorem State.slewAxes_events (s : State) (axes : Vector Bool 4) :
    (s.slewAxes axes).events = s.events := rfl

@[simp] theorem State.slewAxes_results (s : State) (axes : Vector Bool 4) :
    (s.slewAxes axes).results = s.results := rfl

@[simp] theorem State.slewAxes_params (s : State) (axes : Vector Bool 4) :
    (s.slewAxes axes).params = s.params := rfl

@[simp] theorem State.slewAxes_farEnd (s : State) (axes : Vector Bool 4) :
    (s.slewAxes axes).farEnd = s.farEnd := rfl

@[simp] theorem State.slewAxes_requests (s : State) (axes : Vector Bool 4) :
    (s.slewAxes axes).requests = s.requests := rfl

/-! ### opLinkSet -/

@[simp] theorem opLinkSet_rxState (s : State) (up : Bool) :
    (opLinkSet up s).rxState = s.rxState := rfl

@[simp] theorem opLinkSet_tbl (s : State) (up : Bool) :
    (opLinkSet up s).tbl = s.tbl := rfl

@[simp] theorem opLinkSet_last (s : State) (up : Bool) :
    (opLinkSet up s).last = s.last := rfl

@[simp] theorem opLinkSet_current (s : State) (up : Bool) :
    (opLinkSet up s).current = s.current := rfl

@[simp] theorem opLinkSet_target (s : State) (up : Bool) :
    (opLinkSet up s).target = s.target := rfl

@[simp] theorem opLinkSet_linkUp (s : State) (up : Bool) :
    (opLinkSet up s).linkUp = up := rfl

@[simp] theorem opLinkSet_txStream (s : State) (up : Bool) :
    (opLinkSet up s).txStream = s.txStream := rfl

@[simp] theorem opLinkSet_events (s : State) (up : Bool) :
    (opLinkSet up s).events = s.events := rfl

@[simp] theorem opLinkSet_results (s : State) (up : Bool) :
    (opLinkSet up s).results = s.results := rfl

@[simp] theorem opLinkSet_params (s : State) (up : Bool) :
    (opLinkSet up s).params = s.params := rfl

@[simp] theorem opLinkSet_farEnd (s : State) (up : Bool) :
    (opLinkSet up s).farEnd = s.farEnd := rfl

@[simp] theorem opLinkSet_requests (s : State) (up : Bool) :
    (opLinkSet up s).requests = s.requests := rfl

/-! ### opEncode -/

@[simp] theorem opEncode_rxState (s : State) (v c m : Nat) :
    (opEncode v c m s).rxState = s.rxState := rfl

@[simp] theorem opEncode_tbl (s : State) (v c m : Nat) :
    (opEncode v c m s).tbl = s.tbl := rfl

@[simp] theorem opEncode_last (s : State) (v c m : Nat) :
    (opEncode v c m s).last = s.last := rfl

@[simp] theorem opEncode_current (s : State) (v c m : Nat) :
    (opEncode v c m s).current = s.current := rfl

@[simp] theorem opEncode_target (s : State) (v c m : Nat) :
    (opEncode v c m s).target = s.target := rfl

@[simp] theorem opEncode_linkUp (s : State) (v c m : Nat) :
    (opEncode v c m s).linkUp = s.linkUp := rfl

@[simp] theorem opEncode_txStream (s : State) (v c m : Nat) :
    (opEncode v c m s).txStream = s.txStream := rfl

@[simp] theorem opEncode_events (s : State) (v c m : Nat) :
    (opEncode v c m s).events = s.events := rfl

@[simp] theorem opEncode_results (s : State) (v c m : Nat) :
    (opEncode v c m s).results = s.results ++ [.frame (encodeFields v c m)] := rfl

@[simp] theorem opEncode_params (s : State) (v c m : Nat) :
    (opEncode v c m s).params = s.params := rfl

@[simp] theorem opEncode_farEnd (s : State) (v c m : Nat) :
    (opEncode v c m s).farEnd = s.farEnd := rfl

@[simp] theorem opEncode_requests (s : State) (v c m : Nat) :
    (opEncode v c m s).requests = s.requests := rfl

/-! ### opTblRead -/

@[simp] theorem opTblRead_rxState (s : State) (c : Channel) :
    (opTblRead c s).rxState = s.rxState := rfl

@[simp] theorem opTblRead_tbl (s : State) (c : Channel) :
    (opTblRead c s).tbl = s.tbl := rfl

@[simp] theorem opTblRead_last (s : State) (c : Channel) :
    (opTblRead c s).last = s.last := rfl

@[simp] theorem opTblRead_current (s : State) (c : Channel) :
    (opTblRead c s).current = s.current := rfl

@[simp] theorem opTblRead_target (s : State) (c : Channel) :
    (opTblRead c s).target = s.target := rfl

@[simp] theorem opTblRead_linkUp (s : State) (c : Channel) :
    (opTblRead c s).linkUp = s.linkUp := rfl

@[simp] theorem opTblRead_txStream (s : State) (c : Channel) :
    (opTblRead c s).txStream = s.txStream := rfl

@[simp] theorem opTblRead_events (s : State) (c : Channel) :
    (opTblRead c s).events = s.events := rfl

@[simp] theorem opTblRead_results (s : State) (c : Channel) :
    (opTblRead c s).results = s.results ++ [.entry (s.tblAt c) (direction c)] := rfl

@[simp] theorem opTblRead_params (s : State) (c : Channel) :
    (opTblRead c s).params = s.params := rfl

@[simp] theorem opTblRead_farEnd (s : State) (c : Channel) :
    (opTblRead c s).farEnd = s.farEnd := rfl

@[simp] theorem opTblRead_requests (s : State) (c : Channel) :
    (opTblRead c s).requests = s.requests := rfl

/-! ### State.withArrival -/

@[simp] theorem State.withArrival_rxState (s : State) (bs : List Byte) :
    (s.withArrival bs).rxState = .awaitSync := rfl

@[simp] theorem State.withArrival_tbl (s : State) (bs : List Byte) :
    (s.withArrival bs).tbl = s.tbl := rfl

@[simp] theorem State.withArrival_last (s : State) (bs : List Byte) :
    (s.withArrival bs).last = s.last := rfl

@[simp] theorem State.withArrival_current (s : State) (bs : List Byte) :
    (s.withArrival bs).current = s.current := rfl

@[simp] theorem State.withArrival_target (s : State) (bs : List Byte) :
    (s.withArrival bs).target = s.target := rfl

@[simp] theorem State.withArrival_linkUp (s : State) (bs : List Byte) :
    (s.withArrival bs).linkUp = true := rfl

@[simp] theorem State.withArrival_txStream (s : State) (bs : List Byte) :
    (s.withArrival bs).txStream = s.txStream := rfl

@[simp] theorem State.withArrival_events (s : State) (bs : List Byte) :
    (s.withArrival bs).events = s.events := rfl

@[simp] theorem State.withArrival_results (s : State) (bs : List Byte) :
    (s.withArrival bs).results = s.results := rfl

@[simp] theorem State.withArrival_params (s : State) (bs : List Byte) :
    (s.withArrival bs).params = s.params := rfl

@[simp] theorem State.withArrival_farEnd (s : State) (bs : List Byte) :
    (s.withArrival bs).farEnd = s.farEnd := rfl

@[simp] theorem State.withArrival_requests (s : State) (bs : List Byte) :
    (s.withArrival bs).requests = .drain bs :: s.requests := rfl

/-! ### opLineToDim -/

@[simp] theorem opLineToDim_rxState (s : State) (n : Nat) :
    (opLineToDim n s).rxState = s.rxState := rfl

@[simp] theorem opLineToDim_tbl (s : State) (n : Nat) :
    (opLineToDim n s).tbl = s.tbl := rfl

@[simp] theorem opLineToDim_last (s : State) (n : Nat) :
    (opLineToDim n s).last = s.last := rfl

@[simp] theorem opLineToDim_current (s : State) (n : Nat) :
    (opLineToDim n s).current = s.current := rfl

@[simp] theorem opLineToDim_target (s : State) (n : Nat) :
    (opLineToDim n s).target = s.target := rfl

@[simp] theorem opLineToDim_linkUp (s : State) (n : Nat) :
    (opLineToDim n s).linkUp = s.linkUp := rfl

@[simp] theorem opLineToDim_txStream (s : State) (n : Nat) :
    (opLineToDim n s).txStream = s.txStream := rfl

@[simp] theorem opLineToDim_events (s : State) (n : Nat) :
    (opLineToDim n s).events = s.events := rfl

@[simp] theorem opLineToDim_results (s : State) (n : Nat) :
    (opLineToDim n s).results = s.results := rfl

@[simp] theorem opLineToDim_params (s : State) (n : Nat) :
    (opLineToDim n s).params = s.params := rfl

@[simp] theorem opLineToDim_requests (s : State) (n : Nat) :
    (opLineToDim n s).requests = s.requests := rfl

/-! ### opLineLosesToDim -/

@[simp] theorem opLineLosesToDim_rxState (s : State) :
    (opLineLosesToDim s).rxState = s.rxState := rfl

@[simp] theorem opLineLosesToDim_tbl (s : State) :
    (opLineLosesToDim s).tbl = s.tbl := rfl

@[simp] theorem opLineLosesToDim_last (s : State) :
    (opLineLosesToDim s).last = s.last := rfl

@[simp] theorem opLineLosesToDim_current (s : State) :
    (opLineLosesToDim s).current = s.current := rfl

@[simp] theorem opLineLosesToDim_target (s : State) :
    (opLineLosesToDim s).target = s.target := rfl

@[simp] theorem opLineLosesToDim_linkUp (s : State) :
    (opLineLosesToDim s).linkUp = s.linkUp := rfl

@[simp] theorem opLineLosesToDim_txStream (s : State) :
    (opLineLosesToDim s).txStream = s.txStream := rfl

@[simp] theorem opLineLosesToDim_events (s : State) :
    (opLineLosesToDim s).events = s.events := rfl

@[simp] theorem opLineLosesToDim_results (s : State) :
    (opLineLosesToDim s).results = s.results := rfl

@[simp] theorem opLineLosesToDim_params (s : State) :
    (opLineLosesToDim s).params = s.params := rfl

@[simp] theorem opLineLosesToDim_requests (s : State) :
    (opLineLosesToDim s).requests = s.requests := rfl

/-! ### opLineNoiseToDim -/

@[simp] theorem opLineNoiseToDim_rxState (s : State) (b : Byte) :
    (opLineNoiseToDim b s).rxState = s.rxState := rfl

@[simp] theorem opLineNoiseToDim_tbl (s : State) (b : Byte) :
    (opLineNoiseToDim b s).tbl = s.tbl := rfl

@[simp] theorem opLineNoiseToDim_last (s : State) (b : Byte) :
    (opLineNoiseToDim b s).last = s.last := rfl

@[simp] theorem opLineNoiseToDim_current (s : State) (b : Byte) :
    (opLineNoiseToDim b s).current = s.current := rfl

@[simp] theorem opLineNoiseToDim_target (s : State) (b : Byte) :
    (opLineNoiseToDim b s).target = s.target := rfl

@[simp] theorem opLineNoiseToDim_linkUp (s : State) (b : Byte) :
    (opLineNoiseToDim b s).linkUp = s.linkUp := rfl

@[simp] theorem opLineNoiseToDim_txStream (s : State) (b : Byte) :
    (opLineNoiseToDim b s).txStream = s.txStream := rfl

@[simp] theorem opLineNoiseToDim_events (s : State) (b : Byte) :
    (opLineNoiseToDim b s).events = s.events := rfl

@[simp] theorem opLineNoiseToDim_results (s : State) (b : Byte) :
    (opLineNoiseToDim b s).results = s.results := rfl

@[simp] theorem opLineNoiseToDim_params (s : State) (b : Byte) :
    (opLineNoiseToDim b s).params = s.params := rfl

@[simp] theorem opLineNoiseToDim_farEnd (s : State) (b : Byte) :
    (opLineNoiseToDim b s).farEnd = feByte s.params.dimStrict s.farEnd b := rfl

@[simp] theorem opLineNoiseToDim_requests (s : State) (b : Byte) :
    (opLineNoiseToDim b s).requests = s.requests := rfl

/-! ### opLineLosesToUnit -/

@[simp] theorem opLineLosesToUnit_rxState (s : State) :
    (opLineLosesToUnit s).rxState = s.rxState := rfl

@[simp] theorem opLineLosesToUnit_tbl (s : State) :
    (opLineLosesToUnit s).tbl = s.tbl := rfl

@[simp] theorem opLineLosesToUnit_last (s : State) :
    (opLineLosesToUnit s).last = s.last := rfl

@[simp] theorem opLineLosesToUnit_current (s : State) :
    (opLineLosesToUnit s).current = s.current := rfl

@[simp] theorem opLineLosesToUnit_target (s : State) :
    (opLineLosesToUnit s).target = s.target := rfl

@[simp] theorem opLineLosesToUnit_linkUp (s : State) :
    (opLineLosesToUnit s).linkUp = s.linkUp := rfl

@[simp] theorem opLineLosesToUnit_txStream (s : State) :
    (opLineLosesToUnit s).txStream = s.txStream := rfl

@[simp] theorem opLineLosesToUnit_events (s : State) :
    (opLineLosesToUnit s).events = s.events := rfl

@[simp] theorem opLineLosesToUnit_results (s : State) :
    (opLineLosesToUnit s).results = s.results := rfl

@[simp] theorem opLineLosesToUnit_params (s : State) :
    (opLineLosesToUnit s).params = s.params := rfl

@[simp] theorem opLineLosesToUnit_farEnd (s : State) :
    (opLineLosesToUnit s).farEnd = { s.farEnd with sent := s.farEnd.sent.drop 1 } := rfl

@[simp] theorem opLineLosesToUnit_requests (s : State) :
    (opLineLosesToUnit s).requests = s.requests := rfl

/-! ### FarEnd.setReg -/

@[simp] theorem FarEnd.setReg_reg (fe : FarEnd) (a : Dac) (v : U16) :
    (fe.setReg a v).reg = fe.reg.set a.val (some v) a.isLt := rfl

@[simp] theorem FarEnd.setReg_out (fe : FarEnd) (a : Dac) (v : U16) :
    (fe.setReg a v).out = fe.out := rfl

@[simp] theorem FarEnd.setReg_rx (fe : FarEnd) (a : Dac) (v : U16) :
    (fe.setReg a v).rx = fe.rx := rfl

@[simp] theorem FarEnd.setReg_eeprom (fe : FarEnd) (a : Dac) (v : U16) :
    (fe.setReg a v).eeprom = fe.eeprom := rfl

@[simp] theorem FarEnd.setReg_feedback (fe : FarEnd) (a : Dac) (v : U16) :
    (fe.setReg a v).feedback = fe.feedback := rfl

@[simp] theorem FarEnd.setReg_sent (fe : FarEnd) (a : Dac) (v : U16) :
    (fe.setReg a v).sent = fe.sent := rfl

@[simp] theorem FarEnd.setReg_taken (fe : FarEnd) (a : Dac) (v : U16) :
    (fe.setReg a v).taken = fe.taken := rfl

@[simp] theorem FarEnd.setReg_draws (fe : FarEnd) (a : Dac) (v : U16) :
    (fe.setReg a v).draws = fe.draws := rfl

/-! ### FarEnd.drawLatch -/

@[simp] theorem FarEnd.drawLatch_reg (fe : FarEnd) :
    (fe.drawLatch).reg = drawCells fe.draws := rfl

@[simp] theorem FarEnd.drawLatch_out (fe : FarEnd) :
    (fe.drawLatch).out = drawCells (fe.draws + 4) := rfl

@[simp] theorem FarEnd.drawLatch_rx (fe : FarEnd) :
    (fe.drawLatch).rx = fe.rx := rfl

@[simp] theorem FarEnd.drawLatch_eeprom (fe : FarEnd) :
    (fe.drawLatch).eeprom = fe.eeprom := rfl

@[simp] theorem FarEnd.drawLatch_feedback (fe : FarEnd) :
    (fe.drawLatch).feedback = fe.feedback := rfl

@[simp] theorem FarEnd.drawLatch_sent (fe : FarEnd) :
    (fe.drawLatch).sent = fe.sent := rfl

@[simp] theorem FarEnd.drawLatch_taken (fe : FarEnd) :
    (fe.drawLatch).taken = fe.taken := rfl

@[simp] theorem FarEnd.drawLatch_draws (fe : FarEnd) :
    (fe.drawLatch).draws = fe.draws + 8 := rfl

/-! ### FarEnd.drawAll -/

@[simp] theorem FarEnd.drawAll_reg (fe : FarEnd) :
    (fe.drawAll).reg = drawCells fe.draws := rfl

@[simp] theorem FarEnd.drawAll_out (fe : FarEnd) :
    (fe.drawAll).out = drawCells (fe.draws + 4) := rfl

@[simp] theorem FarEnd.drawAll_rx (fe : FarEnd) :
    (fe.drawAll).rx = withSyncFirst (Config.freeRx (fe.draws + 13)) := rfl

@[simp] theorem FarEnd.drawAll_eeprom (fe : FarEnd) :
    (fe.drawAll).eeprom = drawCells (fe.draws + 8) := rfl

@[simp] theorem FarEnd.drawAll_feedback (fe : FarEnd) :
    (fe.drawAll).feedback = Config.freeFeedback (fe.draws + 12) := rfl

@[simp] theorem FarEnd.drawAll_sent (fe : FarEnd) :
    (fe.drawAll).sent = fe.sent := rfl

@[simp] theorem FarEnd.drawAll_taken (fe : FarEnd) :
    (fe.drawAll).taken = fe.taken := rfl

@[simp] theorem FarEnd.drawAll_draws (fe : FarEnd) :
    (fe.drawAll).draws = fe.draws + 14 := rfl

/-! ### feCmdInit -/

@[simp] theorem feCmdInit_reg (fe : FarEnd) (v : U16) :
    (feCmdInit v fe).reg = quad fun a => some (fe.eepromValue a) := rfl

@[simp] theorem feCmdInit_out (fe : FarEnd) (v : U16) :
    (feCmdInit v fe).out = drawCells fe.draws := rfl

@[simp] theorem feCmdInit_rx (fe : FarEnd) (v : U16) :
    (feCmdInit v fe).rx = fe.rx := rfl

@[simp] theorem feCmdInit_eeprom (fe : FarEnd) (v : U16) :
    (feCmdInit v fe).eeprom = fe.eeprom := rfl

@[simp] theorem feCmdInit_feedback (fe : FarEnd) (v : U16) :
    (feCmdInit v fe).feedback = Config.freeFeedback (fe.draws + 4) := rfl

@[simp] theorem feCmdInit_sent (fe : FarEnd) (v : U16) :
    (feCmdInit v fe).sent = fe.sent ++ fe.echoFrames.flatMap Frame.bytes := rfl

@[simp] theorem feCmdInit_taken (fe : FarEnd) (v : U16) :
    (feCmdInit v fe).taken = fe.taken := rfl

@[simp] theorem feCmdInit_draws (fe : FarEnd) (v : U16) :
    (feCmdInit v fe).draws = fe.draws + 10 := rfl

/-! ### feCmdSave -/

@[simp] theorem feCmdSave_reg (fe : FarEnd) (v : U16) :
    (feCmdSave v fe).reg = fe.reg := rfl

@[simp] theorem feCmdSave_out (fe : FarEnd) (v : U16) :
    (feCmdSave v fe).out = fe.out := rfl

@[simp] theorem feCmdSave_rx (fe : FarEnd) (v : U16) :
    (feCmdSave v fe).rx = fe.rx := rfl

@[simp] theorem feCmdSave_eeprom (fe : FarEnd) (v : U16) :
    (feCmdSave v fe).eeprom = quad fun a => some (Config.savedValue fe.reg fe.out a) := rfl

@[simp] theorem feCmdSave_feedback (fe : FarEnd) (v : U16) :
    (feCmdSave v fe).feedback = fe.feedback := rfl

@[simp] theorem feCmdSave_sent (fe : FarEnd) (v : U16) :
    (feCmdSave v fe).sent = fe.sent := rfl

@[simp] theorem feCmdSave_taken (fe : FarEnd) (v : U16) :
    (feCmdSave v fe).taken = fe.taken := rfl

@[simp] theorem feCmdSave_draws (fe : FarEnd) (v : U16) :
    (feCmdSave v fe).draws = fe.draws := rfl

/-! ### FarEnd.powerCycle -/

@[simp] theorem FarEnd.powerCycle_reg (fe : FarEnd) :
    (fe.powerCycle).reg = #v[none, none, none, none] := rfl

@[simp] theorem FarEnd.powerCycle_out (fe : FarEnd) :
    (fe.powerCycle).out = #v[none, none, none, none] := rfl

@[simp] theorem FarEnd.powerCycle_rx (fe : FarEnd) :
    (fe.powerCycle).rx = .awaitSync := rfl

@[simp] theorem FarEnd.powerCycle_eeprom (fe : FarEnd) :
    (fe.powerCycle).eeprom = fe.eeprom := rfl

@[simp] theorem FarEnd.powerCycle_feedback (fe : FarEnd) :
    (fe.powerCycle).feedback = Config.freeFeedback fe.draws := rfl

@[simp] theorem FarEnd.powerCycle_sent (fe : FarEnd) :
    (fe.powerCycle).sent = fe.sent := rfl

@[simp] theorem FarEnd.powerCycle_taken (fe : FarEnd) :
    (fe.powerCycle).taken = fe.taken := rfl

@[simp] theorem FarEnd.powerCycle_draws (fe : FarEnd) :
    (fe.powerCycle).draws = fe.draws + 1 := rfl

/-! ### FarEnd.send -/

@[simp] theorem FarEnd.send_reg (fe : FarEnd) (bs : List Byte) :
    (fe.send bs).reg = fe.reg := rfl

@[simp] theorem FarEnd.send_out (fe : FarEnd) (bs : List Byte) :
    (fe.send bs).out = fe.out := rfl

@[simp] theorem FarEnd.send_rx (fe : FarEnd) (bs : List Byte) :
    (fe.send bs).rx = fe.rx := rfl

@[simp] theorem FarEnd.send_eeprom (fe : FarEnd) (bs : List Byte) :
    (fe.send bs).eeprom = fe.eeprom := rfl

@[simp] theorem FarEnd.send_feedback (fe : FarEnd) (bs : List Byte) :
    (fe.send bs).feedback = fe.feedback := rfl

@[simp] theorem FarEnd.send_sent (fe : FarEnd) (bs : List Byte) :
    (fe.send bs).sent = fe.sent ++ bs := rfl

@[simp] theorem FarEnd.send_taken (fe : FarEnd) (bs : List Byte) :
    (fe.send bs).taken = fe.taken := rfl

@[simp] theorem FarEnd.send_draws (fe : FarEnd) (bs : List Byte) :
    (fe.send bs).draws = fe.draws := rfl

/-! ### FarEnd.sendReading and the DIM's own steps: each is one update of the far end -/

theorem FarEnd.sendReading_eq (fe : FarEnd) (a : Adc) (m : Mode) (v : U16) :
    fe.sendReading a m v =
      fe.send (encodePacket { channel := adcChannel a, mode := m, value := v }).bytes := rfl

theorem opDimPowerUp_eq (s : State) :
    opDimPowerUp s = { s with farEnd := s.farEnd.powerCycle } := rfl

theorem opDimReading_eq (s : State) (a : Adc) (m : Mode) (v : U16) :
    opDimReading a m v s = { s with farEnd := s.farEnd.sendReading a m v } := rfl

theorem opDimSends_eq (s : State) (bs : List Byte) :
    opDimSends bs s = { s with farEnd := s.farEnd.send bs } := rfl

end Sys2Proof.Machine
end

