-- ==== Sys2Proof/Laws/Ops.lean ====
section
/-! SUPPORT. One lemma for each shared operation, saying once what it can do: chaining of outcomes, the
four-cell vectors and address maps, the Channel Table, receipt of a Packet, one received byte, one
operation, one step. -/

namespace Sys2Proof.Machine

/-! ### Outcomes -/

@[simp] theorem andThen_next (s : State) (f : State → Outcome) : andThen (.next s) f = f s := rfl

@[simp] theorem andThen_refused (r : Refusal) (f : State → Outcome) :
    andThen (.refused r) f = .refused r := rfl

theorem andThen_eq_next {o : Outcome} {f : State → Outcome} {t : State} :
    andThen o f = .next t ↔ ∃ s, o = .next s ∧ f s = .next t := by
  cases o <;> simp [andThen]

theorem andThen_assoc (o : Outcome) (f g : State → Outcome) :
    andThen (andThen o f) g = andThen o fun s => andThen (f s) g := by
  cases o <;> rfl

/-! ### Four-cell vectors and addresses -/

theorem quad_get {α : Type} (f : Dac → α) (a : Dac) : (quad f)[a] = f a := by
  fin_cases a <;> rfl

/-- The same in simp's normal form, which writes the index as a natural. -/
@[simp] theorem quad_get_val {α : Type} (f : Dac → α) (a : Dac) :
    (quad f)[a.val]'a.isLt = f a := quad_get f a

/-- Two four-cell vectors with equal cells are equal. -/
theorem cells_ext {α : Type} (v w : Vector α 4) (h : ∀ a : Dac, v[a] = w[a]) : v = w :=
  Vector.ext fun i hi => h ⟨i, hi⟩

theorem quad_of_cells {α : Type} (v : Vector α 4) : (quad fun a => v[a]) = v :=
  cells_ext _ _ fun a => quad_get _ a

/-- Read after write of one cell. -/
theorem set_get {α : Type} (v : Vector α 4) (a b : Dac) (x : α) :
    (v.set b.val x b.isLt)[a] = if a = b then x else v[a] := by
  show (v.set b.val x b.isLt)[a.val] = _
  rw [Vector.getElem_set]
  by_cases h : a = b
  · simp [h]
  · have : ¬ b.val = a.val := fun e => h (Fin.ext e.symm)
    simp [h, this]

@[simp] theorem mem_dacs (a : Dac) : a ∈ dacs := by fin_cases a <;> decide

theorem mem_axesOf (p : Params) (a : Dac) : a ∈ axesOf p ↔ p.isAxis[a] = true := by
  simp [axesOf]

theorem axesOf_nodup (p : Params) : (axesOf p).Nodup :=
  List.Nodup.filter _ (by decide)

theorem axesOnly_iff (p : Params) (axes : Vector Bool 4) :
    axesOnly p axes = true ↔ ∀ a : Dac, axes[a] = true → p.isAxis[a] = true := by
  simp only [axesOnly, List.all_eq_true, Bool.or_eq_true, Bool.not_eq_true']
  constructor
  · intro h a ha
    rcases h a (mem_dacs a) with h' | h' <;> simp_all
  · intro h a _
    cases hv : axes[a] <;> simp_all

theorem dacChannel_ne_cmdAddr (a : Dac) : dacChannel a ≠ cmdAddr := by revert a; decide

theorem adcChannel_ne_cmdAddr (a : Adc) : adcChannel a ≠ cmdAddr := by revert a; decide

@[simp] theorem direction_adcChannel (a : Adc) : direction (adcChannel a) = .adcIn := by
  revert a; decide

@[simp] theorem dacOf_adcChannel (a : Adc) : dacOf (adcChannel a) = none := by revert a; decide

@[simp] theorem dacOf_dacChannel (a : Dac) : dacOf (dacChannel a) = some a := by revert a; decide

theorem dacChannel_injective (a b : Dac) (h : dacChannel a = dacChannel b) : a = b := by
  revert a b; decide

theorem dacOf_eq_some (c : Channel) (a : Dac) : dacOf c = some a ↔ c = dacChannel a := by
  revert c a; decide

/-! ### The Channel Table -/

theorem tblAt_congr (s t : State) (c : Channel) (h : s.tbl = t.tbl) : s.tblAt c = t.tblAt c := by
  simp only [State.tblAt, h]

/-- Read after write: the address written holds the value, every other address is unchanged. -/
theorem tblAt_setTbl (s : State) (c d : Channel) (v : U16) (h : c ≠ cmdAddr) :
    (s.setTbl c v).tblAt d = if d = c then some v else s.tblAt d := by
  simp only [State.tblAt, State.setTbl_tbl_of_ne s c v h]
  rw [Vector.getElem_set]
  by_cases hd : d = c
  · simp [hd]
  · have : ¬ c.toNat = d.toNat := fun e => hd (BitVec.eq_of_toNat_eq e.symm)
    simp [hd, this]

theorem tblAt_setTbl_cmdAddr (s : State) (c : Channel) (v : U16) :
    (s.setTbl c v).tblAt cmdAddr = s.tblAt cmdAddr := by
  by_cases h : c = cmdAddr
  · simp [h]
  · rw [tblAt_setTbl s c cmdAddr v h, if_neg (Ne.symm h)]

/-! ### Receipt of a Packet -/

/-- Everything a data class can do: record and notify, or, on a term that is no frame, refuse. -/
theorem receiveData_cases (ch : Channel) (v : U16) (s : State) :
    (ch ≠ cmdAddr ∧ receiveData ch v s = .next (s.recordReceived ch v)) ∨
    (ch = cmdAddr ∧ receiveData ch v s = .refused .dataClassOnCommandChannel) := by
  by_cases h : ch = cmdAddr <;> simp [receiveData, isDataChannel, h]

/-- The next state DISPATCH leaves. -/
def State.received (s : State) (p : Packet) : State :=
  if p.channel = cmdAddr then
    if p.mode = 0#2 then s.emitEv .cmdInit
    else if p.mode = 1#2 then s.emitEv .cmdSave
    else s
  else s.recordReceived p.channel p.value

/-- DISPATCH of a Packet always completes, and this is all it does. -/
theorem dispatch_next (p : Packet) (s : State) : dispatch p s = .next (s.received p) := by
  unfold dispatch classify State.received
  split_ifs <;> simp_all [exec, execLoad, execLoadUpd, execLoadAll, execRsvd3, execCmdInit,
    execCmdSave, execCmdRsv2, execCmdRsv3, receiveData, isDataChannel]

/-! The state after DISPATCH, field by field: it writes `tbl` and `events` and nothing else. -/

theorem received_cases (s : State) (p : Packet) :
    (p.channel ≠ cmdAddr ∧ s.received p = s.recordReceived p.channel p.value) ∨
    (p.channel = cmdAddr ∧ s.received p = s.emitEv .cmdInit) ∨
    (p.channel = cmdAddr ∧ s.received p = s.emitEv .cmdSave) ∨
    (p.channel = cmdAddr ∧ s.received p = s) := by
  unfold State.received
  split_ifs <;> simp_all

@[simp] theorem State.received_rxState (s : State) (p : Packet) :
    (s.received p).rxState = s.rxState := by
  rcases received_cases s p with ⟨_, e⟩ | ⟨_, e⟩ | ⟨_, e⟩ | ⟨_, e⟩ <;> simp [e]

@[simp] theorem State.received_last (s : State) (p : Packet) : (s.received p).last = s.last := by
  rcases received_cases s p with ⟨_, e⟩ | ⟨_, e⟩ | ⟨_, e⟩ | ⟨_, e⟩ <;> simp [e]

@[simp] theorem State.received_current (s : State) (p : Packet) :
    (s.received p).current = s.current := by
  rcases received_cases s p with ⟨_, e⟩ | ⟨_, e⟩ | ⟨_, e⟩ | ⟨_, e⟩ <;> simp [e]

@[simp] theorem State.received_target (s : State) (p : Packet) :
    (s.received p).target = s.target := by
  rcases received_cases s p with ⟨_, e⟩ | ⟨_, e⟩ | ⟨_, e⟩ | ⟨_, e⟩ <;> simp [e]

@[simp] theorem State.received_linkUp (s : State) (p : Packet) :
    (s.received p).linkUp = s.linkUp := by
  rcases received_cases s p with ⟨_, e⟩ | ⟨_, e⟩ | ⟨_, e⟩ | ⟨_, e⟩ <;> simp [e]

@[simp] theorem State.received_txStream (s : State) (p : Packet) :
    (s.received p).txStream = s.txStream := by
  rcases received_cases s p with ⟨_, e⟩ | ⟨_, e⟩ | ⟨_, e⟩ | ⟨_, e⟩ <;> simp [e]

@[simp] theorem State.received_results (s : State) (p : Packet) :
    (s.received p).results = s.results := by
  rcases received_cases s p with ⟨_, e⟩ | ⟨_, e⟩ | ⟨_, e⟩ | ⟨_, e⟩ <;> simp [e]

@[simp] theorem State.received_params (s : State) (p : Packet) :
    (s.received p).params = s.params := by
  rcases received_cases s p with ⟨_, e⟩ | ⟨_, e⟩ | ⟨_, e⟩ | ⟨_, e⟩ <;> simp [e]

@[simp] theorem State.received_farEnd (s : State) (p : Packet) :
    (s.received p).farEnd = s.farEnd := by
  rcases received_cases s p with ⟨_, e⟩ | ⟨_, e⟩ | ⟨_, e⟩ | ⟨_, e⟩ <;> simp [e]

@[simp] theorem State.received_requests (s : State) (p : Packet) :
    (s.received p).requests = s.requests := by
  rcases received_cases s p with ⟨_, e⟩ | ⟨_, e⟩ | ⟨_, e⟩ | ⟨_, e⟩ <;> simp [e]

/-- Receipt neither reads nor writes the decoder state. -/
theorem received_setRx (s : State) (p : Packet) (rx : RxState) :
    ({ s with rxState := rx } : State).received p = { s.received p with rxState := rx } := by
  unfold State.received State.recordReceived State.emitEv State.setTbl
  split_ifs <;> rfl

/-- Packets dispatched one after the other always complete. -/
theorem dispatchAll_next (ps : List Packet) (s : State) :
    dispatchAll ps s = .next (ps.foldl State.received s) := by
  induction ps generalizing s with
  | nil => rfl
  | cons p ps ih => simp [dispatchAll, dispatch_next, ih]

/-! ### The bytes of some Packets -/

@[simp] theorem wire_nil : wire [] = [] := rfl

@[simp] theorem wire_cons (p : Packet) (ps : List Packet) :
    wire (p :: ps) = (encodePacket p).bytes ++ wire ps := rfl

theorem wire_append (ps qs : List Packet) : wire (ps ++ qs) = wire ps ++ wire qs :=
  List.flatMap_append

/-! ### One received byte -/

/-- Everything RX_BYTE can do: nothing with the link down; else one decoder step, with the Packet it
completes, if any, received. -/
theorem opRxByte_cases (b : Byte) (s : State) :
    (s.linkUp = false ∧ opRxByte b s = .next s) ∨
    (s.linkUp = true ∧ (decodeStep s.params.strictCont s.rxState b).2 = none ∧
      opRxByte b s =
        .next { s with rxState := (decodeStep s.params.strictCont s.rxState b).1 }) ∨
    (∃ p, s.linkUp = true ∧ (decodeStep s.params.strictCont s.rxState b).2 = some p ∧
      opRxByte b s =
        .next ({ s with rxState := (decodeStep s.params.strictCont s.rxState b).1 }.received p)) := by
  unfold opRxByte
  cases hu : s.linkUp
  · simp
  · cases hd : (decodeStep s.params.strictCont s.rxState b).2 <;> simp [hd, dispatch_next]

/-! ### One operation, one step -/

/-- The operations that can do anything but answer one fixed next state: everything a step can do. -/
theorem step_cases (s : State) :
    (s.requests = [] ∧ step s = .next s) ∨
    (∃ r rest, s.requests = r :: rest ∧ step s = perform r { s with requests := rest }) := by
  unfold step serveNext
  cases h : s.requests <;> simp

end Sys2Proof.Machine
end

