-- ==== Sys2Proof/Laws/FarEnd.lean ====
section
/-! SUPPORT. The far end's lemmas: what acting on a frame class can never touch, and one byte at the DIM. -/

namespace Sys2Proof.Machine

/-! ### The drawn decoder state (rules R15, R114, R117) -/

theorem holdsSync_withSyncFirst (rx : RxState) : holdsSync (withSyncFirst rx) = true := by
  cases rx <;> simp [withSyncFirst, holdsSync, isSync]

/-- Every decoder state that rule R15 allows can be drawn. -/
theorem withSyncFirst_of_holdsSync (rx : RxState) (h : holdsSync rx = true) :
    withSyncFirst rx = rx := by
  have mask : ∀ b : Byte, isSync b = true → b &&& 0x7F#8 = b := by decide
  cases rx <;> simp_all [withSyncFirst, holdsSync]

/-! ### Acting on a frame class -/

/-- No frame class touches the line's position, and the DIM never takes back a byte it has sent. -/
theorem feAct_frame (i : Instr) (fe : FarEnd) :
    (feAct i fe).taken = fe.taken ∧ ∃ bs, (feAct i fe).sent = fe.sent ++ bs := by
  cases i <;>
    simp only [feAct, feLoad, feLoadUpd, feLoadAll, feRsvd3, feCmdRsv2, feCmdRsv3] <;>
    first
    | exact ⟨rfl, _, rfl⟩
    | exact ⟨rfl, [], (List.append_nil _).symm⟩
    | (split <;> exact ⟨rfl, [], (List.append_nil _).symm⟩)

/-- The DIM's decoder is left alone, or, where the action is unspecified, drawn anew. -/
theorem feAct_rx_cases (i : Instr) (fe : FarEnd) :
    (feAct i fe).rx = fe.rx ∨
    (feAct i fe).rx = withSyncFirst (Config.freeRx (fe.draws + 13)) := by
  cases i <;>
    simp only [feAct, feLoad, feLoadUpd, feLoadAll, feRsvd3, feCmdRsv2, feCmdRsv3] <;>
    first
    | exact .inl rfl
    | exact .inr rfl
    | (split <;> first | exact .inl rfl | exact .inr rfl)

theorem feAct_keeps_sync (i : Instr) (fe : FarEnd) (h : holdsSync fe.rx = true) :
    holdsSync (feAct i fe).rx = true := by
  rcases feAct_rx_cases i fe with e | e <;> rw [e]
  · exact h
  · exact holdsSync_withSyncFirst _

/-- A frame to a DAC address leaves the DIM's decoder alone. -/
theorem feAct_rx_of_dac (i : Instr) (fe : FarEnd) (a : Dac) (h : dacOf i.packet.channel = some a) :
    (feAct i fe).rx = fe.rx := by
  have hc : dacOf cmdAddr = none := by decide
  cases i <;> simp_all [Instr.packet, feAct, feLoad, feLoadUpd, feLoadAll, feRsvd3]

/-! ### One byte at the DIM -/

/-- Everything one byte does at the DIM: its decoder steps, and the Packet it completes is acted on. -/
theorem feByte_cases (strict : Bool) (fe : FarEnd) (b : Byte) :
    ((decodeStep strict fe.rx b).2 = none ∧
      feByte strict fe b = { fe with rx := (decodeStep strict fe.rx b).1 }) ∨
    (∃ p, (decodeStep strict fe.rx b).2 = some p ∧
      feByte strict fe b = fePacket p { fe with rx := (decodeStep strict fe.rx b).1 }) := by
  unfold feByte
  cases h : (decodeStep strict fe.rx b).2 <;> simp [h]

theorem feByte_taken (strict : Bool) (fe : FarEnd) (b : Byte) :
    (feByte strict fe b).taken = fe.taken := by
  rcases feByte_cases strict fe b with ⟨_, e⟩ | ⟨p, _, e⟩
  · simp [e]
  · rw [e]
    exact (feAct_frame (classify p) _).1

/-- The DIM's decoder keeps rule R15's invariant. -/
theorem feByte_keeps_sync (strict : Bool) (fe : FarEnd) (b : Byte) (h : holdsSync fe.rx = true) :
    holdsSync (feByte strict fe b).rx = true := by
  have hd := decodeStep_keeps_sync strict fe.rx b h
  rcases feByte_cases strict fe b with ⟨_, e⟩ | ⟨p, _, e⟩
  · simpa [e] using hd
  · rw [e]
    exact feAct_keeps_sync (classify p) _ hd

@[simp] theorem feBytes_nil (strict : Bool) (fe : FarEnd) : feBytes strict fe [] = fe := rfl

@[simp] theorem feBytes_cons (strict : Bool) (fe : FarEnd) (b : Byte) (bs : List Byte) :
    feBytes strict fe (b :: bs) = feBytes strict (feByte strict fe b) bs := rfl

theorem feBytes_append (strict : Bool) (fe : FarEnd) (xs ys : List Byte) :
    feBytes strict fe (xs ++ ys) = feBytes strict (feBytes strict fe xs) ys := by
  simp [feBytes]

/-- The order in which echo frames are sent lists every address once. -/
theorem pickOrder_perm {α : Type} (n k : Nat) (xs : List α) (h : xs.length = n) :
    (pickOrder n k xs).Perm xs := by
  induction n generalizing k xs with
  | zero => simp [pickOrder, List.length_eq_zero_iff.mp h]
  | succ n ih =>
    have hk : k % (n + 1) < xs.length := by rw [h]; exact Nat.mod_lt _ (Nat.succ_pos n)
    simp only [pickOrder, List.getElem?_eq_getElem hk]
    exact ((ih (k / (n + 1)) (xs.eraseIdx (k % (n + 1)))
      (by rw [List.length_eraseIdx_of_lt hk]; omega)).cons _).trans
      (List.getElem_cons_eraseIdx_perm hk)

end Sys2Proof.Machine
end

