-- ==== Sys2Proof/Laws/Move.lean ====
section
/-! SUPPORT. The Move Controller's lemmas: the slew step stays between its arguments, what a run of sent
frames does field by field, which axes a tick moves, and the state a tick leaves. -/

namespace Sys2Proof.Machine

/-! ### The slew step (rule R95) -/

theorem slewNat_le (step cur tgt : Nat) : slewNat step cur tgt ≤ max cur tgt := by
  unfold slewNat; split_ifs <;> omega

theorem min_le_slewNat (step cur tgt : Nat) : min cur tgt ≤ slewNat step cur tgt := by
  unfold slewNat; split_ifs <;> omega

/-- Nothing wraps: the u16 step is the step on naturals. -/
theorem slew_toNat (step : StepSize) (cur tgt : U16) :
    (slew step cur tgt).toNat = slewNat step.val cur.toNat tgt.toNat := by
  have := slewNat_le step.val cur.toNat tgt.toNat
  have hc := cur.isLt
  have ht := tgt.isLt
  simp only [slew, BitVec.toNat_ofNat]
  exact Nat.mod_eq_of_lt (by omega)

/-! ### Frames sent one after the other -/

@[simp] theorem sendFrames_nil (s : State) : s.sendFrames [] = s := rfl

@[simp] theorem sendFrames_cons (s : State) (p : Packet) (ps : List Packet) :
    s.sendFrames (p :: ps) = (s.sendFrame p).sendFrames ps := rfl

/-- Everything a run of sent frames does to the outputs, and that it does nothing else but write `tbl`
and `last`. -/
theorem sendFrames_frame (ps : List Packet) (s : State) :
    (s.sendFrames ps).txStream = s.txStream ++ wire ps ∧
    (s.sendFrames ps).events = s.events ++ ps.map (fun p => Event.echo p.value p.channel p.mode) ∧
    (s.sendFrames ps).rxState = s.rxState ∧ (s.sendFrames ps).current = s.current ∧
    (s.sendFrames ps).target = s.target ∧ (s.sendFrames ps).linkUp = s.linkUp ∧
    (s.sendFrames ps).results = s.results ∧ (s.sendFrames ps).params = s.params ∧
    (s.sendFrames ps).farEnd = s.farEnd ∧ (s.sendFrames ps).requests = s.requests := by
  induction ps generalizing s with
  | nil => simp
  | cons p ps ih =>
    obtain ⟨h1, h2, h3, h4, h5, h6, h7, h8, h9, h10⟩ := ih (s.sendFrame p)
    simp [h1, h2, h3, h4, h5, h6, h7, h8, h9, h10]

/-! ### The axes a tick moves -/

theorem mem_movedAxes (s : State) (axes : Vector Bool 4) (a : Dac) :
    a ∈ s.movedAxes axes ↔
      s.params.isAxis[a] = true ∧ axes[a] = true ∧ s.current[a] ≠ s.target[a] := by
  simp [State.movedAxes, mem_axesOf, State.moving]

theorem movedAxes_nodup (s : State) (axes : Vector Bool 4) : (s.movedAxes axes).Nodup :=
  (axesOf_nodup s.params).filter _

/-- The new value of an axis that moved, and the old value of every other. -/
theorem slewAxes_current (s : State) (axes : Vector Bool 4) (a : Dac) :
    (s.slewAxes axes).current[a] =
      if a ∈ s.movedAxes axes then slew s.params.stepSize s.current[a] s.target[a]
      else s.current[a] := by
  simp only [State.slewAxes, quad_get, mem_movedAxes]
  by_cases h : s.current[a] = s.target[a] <;> simp [State.moving, h, and_assoc]

/-! ### The state a tick leaves -/

/-- Everything a tick does to the fields it does not send through: the Move state, and what stays. -/
theorem tick_frame (axes : Vector Bool 4) (s : State) :
    (tick axes s).current = (s.slewAxes axes).current ∧ (tick axes s).target = s.target ∧
    (tick axes s).rxState = s.rxState ∧ (tick axes s).linkUp = s.linkUp ∧
    (tick axes s).params = s.params ∧ (tick axes s).farEnd = s.farEnd ∧
    (tick axes s).requests = s.requests ∧
    (tick axes s).results = s.results ++ [.moving ((s.slewAxes axes).anyMoving axes)] := by
  obtain ⟨_, _, h3, h4, h5, h6, h7, h8, h9, h10⟩ :=
    sendFrames_frame ((s.slewAxes axes).tickPackets (s.movedAxes axes)) (s.slewAxes axes)
  simp only [tick]
  split <;> simp_all

/-- What a tick writes to the outputs with the link up. -/
theorem tick_outputs_up (axes : Vector Bool 4) (s : State) (h : s.linkUp = true) :
    (tick axes s).txStream =
        s.txStream ++ wire ((s.slewAxes axes).tickPackets (s.movedAxes axes)) ∧
    (tick axes s).events =
        s.events ++ ((s.slewAxes axes).tickPackets (s.movedAxes axes)).map
          (fun p => Event.echo p.value p.channel p.mode) := by
  obtain ⟨h1, h2, _⟩ :=
    sendFrames_frame ((s.slewAxes axes).tickPackets (s.movedAxes axes)) (s.slewAxes axes)
  simp [tick, h, h1, h2]

/-- With the link down a tick sends nothing. -/
theorem tick_outputs_down (axes : Vector Bool 4) (s : State) (h : s.linkUp = false) :
    (tick axes s).txStream = s.txStream ∧ (tick axes s).events = s.events ∧
    (tick axes s).tbl = s.tbl ∧ (tick axes s).last = s.last := by
  simp [tick, h]

end Sys2Proof.Machine
end

