-- ==== Sys2Proof/Laws/PerInstr.lean ====
section
/-! SUPPORT. One statement per instruction, over the instruction as syntax: its canonical word meets its
own row of spec/opcode_table.json, as the lax and as the strict decoder tests it (rules R51, R52), and its
Packet is of its class (R81). -/

namespace Sys2Proof.Laws.OpcodeTable

open Sys2Proof Sys2Proof.Machine

/-- The instruction's canonical word meets its row's match and mask with either decoder, and a
well-formed instruction is the class of its own Packet. -/
def Statement (i : Instr) : Prop :=
  (∀ strict : Bool, meetsRow strict (rowMask i) (rowMatch i) (encode i).word = true) ∧
  (i.wf = true → classify i.packet = i)

/-- The word of a Packet under a mask that looks at the markers and the mode only. -/
theorem word_and_mask (p : Packet) (strict : Bool) :
    (encodePacket p).word &&& (0x8C0000#24 ||| strictBits strict) =
      (BitVec.zeroExtend 24 p.mode <<< 18) ||| strictBits strict := by
  apply BitVec.eq_of_getLsbD_eq
  intro i hi
  cases strict <;>
  · simp only [Frame.word, encodePacket, strictBits, BitVec.getLsbD_and, BitVec.getLsbD_or,
      BitVec.getLsbD_append, BitVec.getLsbD_extractLsb', BitVec.getLsbD_shiftLeft]
    interval_cases i <;> simp

/-- The word of a Packet under a mask that looks at the channel too. -/
theorem word_and_command_mask (p : Packet) (strict : Bool) :
    (encodePacket p).word &&& (0xFC0000#24 ||| strictBits strict) =
      (BitVec.zeroExtend 24 p.channel <<< 20) ||| (BitVec.zeroExtend 24 p.mode <<< 18) |||
        strictBits strict := by
  apply BitVec.eq_of_getLsbD_eq
  intro i hi
  cases strict <;>
  · simp only [Frame.word, encodePacket, strictBits, BitVec.getLsbD_and, BitVec.getLsbD_or,
      BitVec.getLsbD_append, BitVec.getLsbD_extractLsb', BitVec.getLsbD_shiftLeft]
    interval_cases i <;> simp

theorem load (ch : Channel) (v : U16) : Statement (.load ch v) := by
  refine ⟨fun strict => ?_, classify_packet _⟩
  simp only [meetsRow, encode, rowMask, rowMatch, word_and_mask, Instr.packet]
  cases strict <;> decide

theorem loadUpd (ch : Channel) (v : U16) : Statement (.loadUpd ch v) := by
  refine ⟨fun strict => ?_, classify_packet _⟩
  simp only [meetsRow, encode, rowMask, rowMatch, word_and_mask, Instr.packet]
  cases strict <;> decide

theorem loadAll (ch : Channel) (v : U16) : Statement (.loadAll ch v) := by
  refine ⟨fun strict => ?_, classify_packet _⟩
  simp only [meetsRow, encode, rowMask, rowMatch, word_and_mask, Instr.packet]
  cases strict <;> decide

theorem rsvd3 (ch : Channel) (v : U16) : Statement (.rsvd3 ch v) := by
  refine ⟨fun strict => ?_, classify_packet _⟩
  simp only [meetsRow, encode, rowMask, rowMatch, word_and_mask, Instr.packet]
  cases strict <;> decide

theorem cmdInit (v : U16) : Statement (.cmdInit v) := by
  refine ⟨fun strict => ?_, classify_packet _⟩
  simp only [meetsRow, encode, rowMask, rowMatch, word_and_command_mask, Instr.packet]
  cases strict <;> decide

theorem cmdSave (v : U16) : Statement (.cmdSave v) := by
  refine ⟨fun strict => ?_, classify_packet _⟩
  simp only [meetsRow, encode, rowMask, rowMatch, word_and_command_mask, Instr.packet]
  cases strict <;> decide

theorem cmdRsv2 (v : U16) : Statement (.cmdRsv2 v) := by
  refine ⟨fun strict => ?_, classify_packet _⟩
  simp only [meetsRow, encode, rowMask, rowMatch, word_and_command_mask, Instr.packet]
  cases strict <;> decide

theorem cmdRsv3 (v : U16) : Statement (.cmdRsv3 v) := by
  refine ⟨fun strict => ?_, classify_packet _⟩
  simp only [meetsRow, encode, rowMask, rowMatch, word_and_command_mask, Instr.packet]
  cases strict <;> decide

end Sys2Proof.Laws.OpcodeTable
end

