-- ==== Sys2Proof/Tests/Slice0.lean ====
section
/-! SUPPORT. The model's own tests. Expected results are the vectors of spec/95_test_vectors.md (V-…) or are
written out by hand from the encodings of spec/30_encoding.md; then one witness for each statement of
Certificates/Slice0/Obligations.lean that has premises. -/

namespace Sys2Proof.Tests

open Sys2Proof Sys2Proof.Machine

/-- The state after reset with the link raised. -/
def up : State := { State.reset with linkUp := true }

/-- A field of the next state, if there is one. -/
def after {α : Type} (o : Outcome) (f : State → α) : Option α :=
  match o with
  | .next s => some (f s)
  | .fault _ => none
  | .refused _ => none

/-- `up` with the Move state of axes 0 and 1 as given. -/
def moved (c0 c1 t0 t1 : U16) : State :=
  { up with current := #v[c0, c1, 0#16, 0#16], target := #v[t0, t1, 0#16, 0#16] }

/-- The set of axes 0 and 1. -/
def both : Vector Bool 4 := #v[true, true, false, false]

/-- The reference parameters with the strict decoder. -/
def strictParams : Params := { Params.reference with strictCont := true }

/-- The reference parameters with all four DAC channels as axes. -/
def fourAxes : Params := { Params.reference with isAxis := #v[true, true, true, true] }

/-- A far end with registers and outputs as section 2.7 of the vectors starts from. -/
def latch : FarEnd :=
  { FarEnd.powerUp with
    reg := #v[some 0#16, some 0#16, none, none]
    out := #v[some 0#16, some 0#16, none, none] }

/-! ### WellFormed: an ill-formed term for each check, and the boundary that passes -/

theorem test_wf_load_command_channel : (Instr.load 7#3 0#16).wf = false := by decide
theorem test_wf_loadUpd_command_channel : (Instr.loadUpd 7#3 0#16).wf = false := by decide
theorem test_wf_loadAll_command_channel : (Instr.loadAll 7#3 0#16).wf = false := by decide
theorem test_wf_rsvd3_command_channel : (Instr.rsvd3 7#3 0#16).wf = false := by decide
theorem test_wf_data_channel_six : (Instr.load 6#3 0xFFFF#16).wf = true := by decide
theorem test_wf_command : (Instr.cmdRsv3 0xFFFF#16).wf = true := by decide

/-! ### Decoding, each class from a word written out bit by bit (rule R52) -/

/-- `0 010 00 01 | 1 1111111 | 1 1111111`: LOAD 2, 0x7FFF. -/
theorem test_decode_load :
    decode [0b00100001#8, 0b11111111#8, 0b11111111#8] = .ok (.load 2#3 0x7FFF#16, []) := by rfl

/-- `0 011 01 00 | 1 0100100 | 1 0110100`: LOADUPD 3, 0x1234 (V-E5). -/
theorem test_decode_loadUpd :
    decode [0b00110100#8, 0b10100100#8, 0b10110100#8] = .ok (.loadUpd 3#3 0x1234#16, []) := by rfl

/-- `0 001 10 10 | 1 0000000 | 1 0000000`: LOADALL 1, 0x8000 (V-E4). -/
theorem test_decode_loadAll :
    decode [0b00011010#8, 0b10000000#8, 0b10000000#8] = .ok (.loadAll 1#3 0x8000#16, []) := by rfl

/-- `0 110 11 10 | 1 1010111 | 1 1001101`: RSVD3 6, 0xABCD (V-E10). -/
theorem test_decode_rsvd3 :
    decode [0b01101110#8, 0b11010111#8, 0b11001101#8] = .ok (.rsvd3 6#3 0xABCD#16, []) := by rfl

/-- `0 111 00 00 | 1 0000000 | 1 0000000`: CMDINIT (V-E14). -/
theorem test_decode_cmdInit :
    decode [0b01110000#8, 0b10000000#8, 0b10000000#8] = .ok (Instr.pseudoInit, []) := by rfl

/-- `0 111 01 11 | 1 1111111 | 1 1111111`: CMDSAVE with the don't-care value 0xFFFF (V-E16). -/
theorem test_decode_cmdSave :
    decode [0b01110111#8, 0b11111111#8, 0b11111111#8] = .ok (.cmdSave 0xFFFF#16, []) := by rfl

/-- `0 111 10 00 | 1 0000000 | 1 0000000`: CMDRSV2 (V-E17). -/
theorem test_decode_cmdRsv2 :
    decode [0b01111000#8, 0b10000000#8, 0b10000000#8] = .ok (.cmdRsv2 0#16, []) := by rfl

/-- `0 111 11 11 | 1 1111111 | 1 1111111`: CMDRSV3 (V-E2). -/
theorem test_decode_cmdRsv3 :
    decode [0b01111111#8, 0b11111111#8, 0b11111111#8] = .ok (.cmdRsv3 0xFFFF#16, []) := by rfl

/-- The three refusals (rules R55, R68, R72). -/
theorem test_decode_rejects :
    decode [0x05#8, 0xFF#8] = .error .incomplete ∧
    decode [0x85#8, 0xFF#8, 0xFF#8] = .error (.notSync 0x85#8) ∧
    decodeWith true [0x05#8, 0x7F#8, 0xFF#8] = .error .badContinuation := by
  refine ⟨rfl, rfl, rfl⟩

/-- The literal the source prints for its scenario decodes to something else (V-S8c, C1). -/
theorem test_decode_printed_literal :
    decode [0x10#8, 0xFF#8, 0xFF#8] = .ok (.load 1#3 0x3FFF#16, []) := by rfl

/-- A table word is one 24-bit number with byte0 most significant. -/
theorem test_table_word : decodeTableWord 24 0x700000 = some (.cmdInit 0#16) := by decide

/-! ### ENCODE (V-E3, V-E9, V-E18) -/

theorem test_encode_scenario : (encodeFields 0x7FFF 0 1).bytes = [0x05#8, 0xFF#8, 0xFF#8] := by
  decide
theorem test_encode_bit7 : (encodeFields 0x0080 4 1).bytes = [0x44#8, 0x81#8, 0x80#8] := by decide
theorem test_encode_masks : (encodeFields 0x12345 9 5).bytes = [0x14#8, 0xC6#8, 0xC5#8] := by decide

/-! ### Receipt of each class (V-C1 to V-C8) -/

theorem test_load_known_zero : after (exec (.load 0#3 0#16) up) (·.tblAt 0#3) = some (some 0#16) := by
  decide
theorem test_loadUpd_event :
    after (exec (.loadUpd 4#3 0x0080#16) up) (·.events) = some [.chanUpdate 4#3 0x0080#16] := by decide
theorem test_loadAll_one_entry :
    after (exec (.loadAll 1#3 0x8000#16) up) (·.tbl) =
      some #v[none, some 0x8000#16, none, none, none, none, none, none] := by decide
theorem test_rsvd3_recorded :
    after (exec (.rsvd3 6#3 0xABCD#16) up) (·.tblAt 6#3) = some (some 0xABCD#16) := by decide
theorem test_cmdInit_event : after (exec (.cmdInit 0#16) up) (·.events) = some [.cmdInit] := by decide
theorem test_cmdSave_event : after (exec (.cmdSave 0xFFFF#16) up) (·.events) = some [.cmdSave] := by
  decide
theorem test_cmdRsv2_nothing : after (exec (.cmdRsv2 0#16) up) (·.events) = some [] := by decide
theorem test_cmdRsv3_nothing : after (exec (.cmdRsv3 0xFFFF#16) up) (·.tblAt 7#3) = some none := by
  decide

/-- The machine runs a placed word as the first instruction after reset. -/
theorem test_step_placed_word :
    after (step (State.reset.withFetchWord 24 0x740000)) (·.events) = some [.cmdSave] := by decide

/-! ### The decoder (V-X7, V-X9, V-X10, V-R4, V-D3, V-S3, V-I3) -/

theorem test_rx_lax_sync_in_haveFirst :
    decodeStep false (.haveFirst 0x05#8) 0x12#8 = (.haveSecond 0x05#8 0x12#8, none) := by decide
theorem test_rx_strict_sync_in_haveFirst :
    decodeStep true (.haveFirst 0x05#8) 0x12#8 = (.haveFirst 0x12#8, none) := by decide
theorem test_rx_strict_sync_in_haveSecond :
    decodeStep true (.haveSecond 0x05#8 0xFF#8) 0x7F#8 = (.haveFirst 0x7F#8, none) := by decide
theorem test_rx_bit7_ignored :
    (decodeStep false (.haveSecond 0x05#8 0x12#8) 0xB4#8).2 =
      some { channel := 0#3, mode := 1#2, value := 0x4934#16 } := by decide
theorem test_rx_deleted_byte1_lax :
    (decodeRun false .awaitSync [0x05#8, 0xFF#8, 0xFF#8, 0x34#8, 0xB4#8, 0x1A#8, 0x80#8, 0x80#8]).2 =
      [{ channel := 0#3, mode := 1#2, value := 0x7FFF#16 },
       { channel := 3#3, mode := 1#2, value := 0x1A1A#16 }] := by decide
theorem test_rx_deleted_byte1_strict :
    (decodeRun true .awaitSync [0x05#8, 0xFF#8, 0xFF#8, 0x34#8, 0xB4#8, 0x1A#8, 0x80#8, 0x80#8]).2 =
      [{ channel := 0#3, mode := 1#2, value := 0x7FFF#16 },
       { channel := 1#3, mode := 2#2, value := 0x8000#16 }] := by decide
theorem test_drain_noise :
    after (perform (.drain [0xFF#8, 0x80#8, 0xC3#8, 0x05#8, 0xFF#8, 0xFF#8, 0x99#8]) up) (·.events) =
      some [.chanUpdate 0#3 0x7FFF#16] := by decide

/-! ### SEND, commands, table, link, reset (V-T1 to V-T5, V-O1, V-O3, V-K1) -/

theorem test_send_stream :
    after (perform (.send 0x1234 3 1) up) (·.txStream) = some [0x34#8, 0xA4#8, 0xB4#8] := by decide
theorem test_send_down : after (perform (.send 0x1234 3 1) State.reset) (·.txStream) = some [] := by
  decide
theorem test_send_command_not_recorded :
    after (perform (.send 0 7 0) up) (fun s => (s.tblAt 7#3, s.events)) =
      some (none, [.echo 0#16 7#3 0#2]) := by decide
theorem test_send_masks_last :
    after (perform (.send 0x12345 9 5) up) (·.last) =
      some (some { channel := 1#3, mode := 1#2, value := 0x2345#16 }) := by decide
theorem test_opInit_link_down :
    after (perform .opInit State.reset) (fun s => (s.events, s.txStream)) = some ([.cmdInit], []) := by
  decide
theorem test_tblRead_directions :
    after (performAll [.tblRead 3#3, .tblRead 4#3, .tblRead 6#3, .tblRead 7#3] State.reset) (·.results) =
      some [.entry none .dacOut, .entry none .adcIn, .entry none .adcIn, .entry none .command] := by
  decide
theorem test_drain_down :
    after (perform (.drain [0x05#8, 0xFF#8, 0xFF#8]) State.reset) (·.rxState) = some .awaitSync := by
  decide
/-- V-K5: a partial frame survives a loss of the link. -/
theorem test_stale_partial_frame :
    after (performAll [.drain [0x05#8, 0xFF#8], .linkSet false, .drain [0xFF#8], .linkSet true,
      .drain [0x80#8]] up) (·.tblAt 0#3) = some (some 0x7F80#16) := by decide

/-! ### The Move Controller (V-L2, V-L3, V-L6, V-M1, V-M2, V-M3, V-M7, V-M14, V-K2) -/

theorem test_slew_top : slew ⟨255, by decide⟩ 0xFF00#16 0xFFFF#16 = 0xFFFF#16 := by decide
theorem test_slew_down : slew ⟨255, by decide⟩ 0x0100#16 0x0000#16 = 0x0001#16 := by decide
theorem test_slew_full_down : slew ⟨255, by decide⟩ 0xFFFF#16 0x0000#16 = 0xFF00#16 := by decide
theorem test_tick_pair :
    after (perform (.moveTick both) (moved 0#16 0#16 0x0200#16 0x0100#16))
      (fun s => (s.txStream, s.results)) =
      some ([0x00#8, 0x81#8, 0xFF#8, 0x18#8, 0x81#8, 0xFF#8], [.moving true]) := by decide
theorem test_tick_single :
    after (perform (.moveTick both) (moved 0x01FE#16 0x0100#16 0x0200#16 0x0100#16))
      (fun s => (s.txStream, s.results)) =
      some ([0x04#8, 0x84#8, 0x80#8], [.moving false]) := by decide
theorem test_tick_subset :
    after (perform (.moveTick (onlyAxis 1)) (moved 0#16 0#16 0x0010#16 0x0020#16))
      (fun s => (s.txStream, s.current[0], s.results)) =
      some ([0x14#8, 0x80#8, 0xA0#8], 0#16, [.moving false]) := by decide
theorem test_tick_three_of_four :
    after (perform (.moveTick #v[true, true, true, true])
      { State.powerOn fourAxes with
        linkUp := true, target := #v[1#16, 0#16, 0x4000#16, 0xFFFF#16] }) (·.txStream) =
      some [0x00#8, 0x80#8, 0x81#8, 0x20#8, 0x81#8, 0xFF#8, 0x38#8, 0x81#8, 0xFF#8] := by decide
theorem test_tick_down :
    after (performAll [.setTarget 0 0x01FE#16, .moveTick (onlyAxis 0)] State.reset)
      (fun s => (s.current[0], s.txStream, s.results)) =
      some (0x00FF#16, [], [.moving true]) := by decide
theorem test_move_to_target :
    after (perform (.moveToTarget #v[some 0x0010#16, none, none, none]) up)
      (fun s => (s.txStream, s.target[0], s.results)) =
      some ([0x04#8, 0x80#8, 0x90#8], 0x0010#16, [.moving false]) := by decide

/-! ### The far end (V-F1 to V-F5) -/

theorem test_fe_load :
    (feBytes false latch [0x00#8, 0x81#8, 0xFF#8]).out = latch.out := by decide
theorem test_fe_loadAll :
    (feBytes false latch [0x00#8, 0x81#8, 0xFF#8, 0x18#8, 0x81#8, 0xFF#8]).out =
      #v[some 0x00FF#16, some 0x00FF#16, none, none] := by decide
theorem test_fe_loadUpd_leaves_pending :
    (feBytes false latch [0x21#8, 0x80#8, 0x80#8, 0x14#8, 0x80#8, 0xA0#8]).out =
      #v[some 0#16, some 0x0020#16, none, none] := by decide

/-- A *Save* of a DIM with known registers, then its power-up: the register is unknown again. -/
theorem test_dim_power_up :
    after (perform .dimPowerUp { up with farEnd := feAct (.cmdSave 0#16) latch })
      (·.farEnd.reg) = some #v[none, none, none, none] := by decide

/-- A reading of ADC address 4 with value 0x0080 is the frame of V-E9. -/
theorem test_dim_reading :
    after (perform (.dimReading 0 1#2 0x0080#16) up) (·.farEnd.sent) =
      some [0x44#8, 0x81#8, 0x80#8] := by decide
/-- With the link down and a byte waiting, the frame goes behind it. -/
theorem test_dim_reading_waits :
    after (performAll [.dimSends [0x99#8], .dimReading 0 1#2 0x0080#16] State.reset) (·.farEnd.sent) =
      some [0x99#8, 0x44#8, 0x81#8, 0x80#8] := by decide
theorem test_dim_reading_arrives :
    after (performAll [.dimReading 0 1#2 0x0080#16, .lineToUnit 3] up)
      (fun s => (s.tblAt 4#3, s.events)) =
      some (some 0x0080#16, [.chanUpdate 4#3 0x0080#16]) := by decide

/-! ### Witnesses: a state and operands that meet all premises of a statement -/

/-- `up` after one SEND: a state with a non-empty history. -/
def sentOnce : State := opSend 0x1234 3 1 up

/-- A drain of one frame waiting, at a frame boundary with the link up. -/
def waiting : State := { up with requests := [.drain [0x34#8, 0xA4#8, 0xB4#8], .opInit] }

/-- The last byte of a frame waiting. -/
def lastByteWaiting : State :=
  { up with rxState := .haveSecond 0x34#8 0xA4#8, requests := [.rxByte 0xB4#8] }

theorem witness_DataClassReceiptRecordsAndNotifies : (0#3 ≠ cmdAddr) ∧ (6#3 ≠ cmdAddr) := by decide
theorem witness_DispatchSelectsAndRunsInEmissionOrder : up.linkUp = true := by decide
theorem witness_TableReadReturnsEntryAndDirection : sentOnce.tblAt cmdAddr = none := by decide
theorem witness_StepRunsDecodedInstruction_drain :
    waiting.linkUp = true ∧ waiting.rxState = .awaitSync ∧
    waiting.requests = .drain [0x34#8, 0xA4#8, 0xB4#8] :: [.opInit] ∧
    decodeWith waiting.params.strictCont [0x34#8, 0xA4#8, 0xB4#8] =
      .ok (.loadUpd 3#3 0x1234#16, []) := ⟨rfl, rfl, rfl, rfl⟩
theorem witness_StepRunsDecodedInstruction_byte :
    lastByteWaiting.linkUp = true ∧ lastByteWaiting.requests = .rxByte 0xB4#8 :: [] ∧
    decodeStep lastByteWaiting.params.strictCont lastByteWaiting.rxState 0xB4#8 =
      (.awaitSync, some { channel := 3#3, mode := 1#2, value := 0x1234#16 }) := by decide
theorem witness_StepRunsPlacedTableWord :
    State.reset.params.strictCont = false ∧
    decodeTableWord 24 0x7FFFFF = some (.cmdRsv3 0xFFFF#16) := by decide
theorem witness_StepServesOneOperation :
    waiting.requests = .drain [0x34#8, 0xA4#8, 0xB4#8] :: [.opInit] ∧ up.requests = [] := by decide
theorem witness_DecodeOfEncodeIsTheInstruction :
    (Instr.load 6#3 0xFFFF#16).wf = true ∧ (Instr.cmdRsv3 0#16).wf = true := by decide
theorem witness_EveryWellFormedFrameEncodesOneInstruction :
    (Frame.mk 0x7F#8 0x80#8 0xFF#8).wf = true := by decide
/-- For the laws of the decoder: a continuation byte and a sync byte at the ends of their ranges. -/
theorem witness_byte_bit7 :
    (0x80#8).getLsbD 7 = true ∧ (0xFF#8).getLsbD 7 = true ∧ (0x00#8).getLsbD 7 = false ∧
    (0x7F#8).getLsbD 7 = false := by decide
theorem witness_StrictDecoderRejectsAndResyncs :
    decodeStep true (.haveSecond 0x34#8 0xA4#8) 0xB4#8 =
      (.awaitSync, some { channel := 3#3, mode := 1#2, value := 0x1234#16 }) ∧
    (decodeStep true (.haveFirst 0x34#8) 0xA4#8).1 = .haveSecond 0x34#8 0xA4#8 ∧
    (∀ f ∈ [encode .pseudoInit, encode .pseudoSave], f.wf = true) := by decide
theorem witness_ReceiveByteStepsTheDecoder :
    State.reset.linkUp = false ∧ up.linkUp = true ∧
    decodeStep up.params.strictCont up.rxState 0x34#8 = (.haveFirst 0x34#8, none) ∧
    decodeStep lastByteWaiting.params.strictCont lastByteWaiting.rxState 0xB4#8 =
      (.awaitSync, some { channel := 3#3, mode := 1#2, value := 0x1234#16 }) := by decide
theorem witness_link_down : State.reset.linkUp = false := by decide
theorem witness_EncodedFramesRoundTrip : 65535 < 65536 ∧ 7 < 8 ∧ 3 < 4 := by decide
theorem witness_OneSubstitutedByteSpoilsOneFrame :
    (0x24#8).getLsbD 7 = false ∧
    0x24#8 ≠ (encodePacket { channel := 3#3, mode := 1#2, value := 0x1234#16 }).byte0 := by decide
theorem witness_OneInsertedByteLaxDecoder :
    (0x34#8).extractLsb' 0 7 =
      (encodePacket { channel := 3#3, mode := 1#2, value := 0x1234#16 }).byte2.extractLsb' 0 7 := by
  decide
theorem witness_SendWritesRecordsAndEchoes : up.linkUp = true := by decide
theorem witness_LinkSetAndTheEffectsOfALinkDown :
    State.reset.linkUp = false ∧
    after (perform (.moveTick both) State.reset) (·.linkUp) = some false := by decide
theorem witness_ResetSetsEveryElement :
    State.reset.params.isAxis[1] = true ∧ axesOnly State.reset.params both = true := by decide
theorem witness_SetTargetOverwritesOneTarget : up.params.isAxis[0] = true := by decide
theorem witness_AddressesOutsideAxesAreRefused :
    up.params.isAxis[2] = false ∧ (onlyAxis 2)[2] = true ∧
    (#v[none, none, some 5#16, none] : Vector (Option U16) 4)[2] ≠ none := by decide
/-- Distances of exactly the step, one more, and none. -/
theorem witness_SlewStepIsLimitedAndNeverOvershoots :
    max 0x00FF 0 - min 0x00FF 0 = 255 ∧ max 0x0100 0 - min 0x0100 0 > 255 ∧
    max 7 7 - min 7 7 = 0 := by decide
theorem witness_MoveTickIsThePseudocode : axesOnly up.params both = true := by decide
theorem witness_TickFramesAreAtomic :
    (moved 0#16 0#16 0x0200#16 0x0100#16).linkUp = true ∧
    axesOnly (moved 0#16 0#16 0x0200#16 0x0100#16).params both = true ∧
    (moved 0#16 0#16 0x0200#16 0x0100#16).movedAxes both = [0, 1] ∧
    (moved 0#16 0#16 0x0200#16 0#16).movedAxes both = [0] := by decide
theorem witness_TickWithLinkDownMovesUnseen :
    State.reset.linkUp = false ∧ axesOnly State.reset.params both = true := by decide
theorem witness_MoveToTargetIsTargetsThenTick :
    axesOnly up.params (domainOf #v[none, some 5#16, none, none]) = true ∧
    (([(1, 5#16)] : List (Dac × U16)).map Prod.fst).Nodup ∧
    ∀ a : Dac, ∀ t : U16, (a, t) ∈ [((1 : Dac), 5#16)] ↔
      (#v[none, some 5#16, none, none] : Vector (Option U16) 4)[a] = some t := by
  refine ⟨by decide, by decide, fun a t => ?_⟩
  fin_cases a <;> simp [eq_comm]
theorem witness_AxisStateMachine :
    (moved 5#16 0#16 5#16 0x0100#16).params.isAxis[0] = true ∧
    axesOnly (moved 5#16 0#16 5#16 0x0100#16).params both = true ∧ both[0] = true ∧
    (moved 5#16 0#16 5#16 0x0100#16).onTarget 0 = true := by decide
theorem witness_AxisConvergesInCeilDistanceOverStepTicks :
    up.params.isAxis[0] = true ∧
    ∀ S ∈ [both, onlyAxis 0], axesOnly up.params S = true ∧ S[0] = true := by decide
theorem witness_MoveStateIsWrittenByMovesAndResetOnly :
    after (perform (.drain [0x34#8, 0xA4#8, 0xB4#8]) up) (·.rxState) = some .awaitSync ∧
    (∀ axes, Request.drain [0x34#8, 0xA4#8, 0xB4#8] ≠ .moveTick axes) ∧
    (∀ m, Request.drain [0x34#8, 0xA4#8, 0xB4#8] ≠ .moveToTarget m) ∧
    Request.drain [0x34#8, 0xA4#8, 0xB4#8] ≠ .reset := by
  refine ⟨by decide, by simp, by simp, by simp⟩
theorem witness_FarEndOpenActionsAndItsReadings_actions :
    (Instr.load 4#3 0#16).wf = true ∧ dacOf (Instr.load 4#3 0#16).packet.channel = none ∧
    (Instr.load 4#3 0#16).packet.channel ≠ cmdAddr ∧ (Instr.rsvd3 (dacChannel 3) 0#16).wf = true ∧
    (Instr.cmdRsv2 0#16).wf = true ∧ holdsSync latch.rx = true := by decide
theorem witness_FarEndOpenActionsAndItsReadings_readings :
    up.linkUp = true ∧ up.rxState = .awaitSync ∧ up.farEnd.sent = [] := by decide
theorem witness_MovedOutputsUpdateOnTheSameEdge :
    (moved 0#16 0#16 0x0200#16 0x0100#16).linkUp = true ∧
    axesOnly (moved 0#16 0#16 0x0200#16 0x0100#16).params both = true ∧
    (moved 0#16 0#16 0x0200#16 0x0100#16).farEnd.rx = .awaitSync ∧
    (moved 0#16 0#16 0x0200#16 0x0100#16).farEnd.taken =
      (moved 0#16 0#16 0x0200#16 0x0100#16).txStream.length ∧
    (moved 0#16 0#16 0x0200#16 0x0100#16).movedAxes both ≠ [] := by decide
theorem witness_FarEndLoadAllCommitsEveryRegister : (1 : Dac) ≠ 0 := by decide
theorem witness_InitializeRoundTripFillsTheTable :
    up.linkUp = true ∧ up.rxState = .awaitSync ∧ up.farEnd.rx = .awaitSync ∧
    up.farEnd.taken = up.txStream.length ∧ up.farEnd.sent = [] := by decide
theorem witness_StepKeepsDecoderInvariant :
    DecoderInv lastByteWaiting ∧ after (step lastByteWaiting) (·.rxState) = some .awaitSync := by
  refine ⟨?_, by decide⟩
  unfold DecoderInv
  decide
theorem witness_StepKeepsHistoryInvariant :
    HistoryInv sentOnce ∧ after (step sentOnce) (·.linkUp) = some true := by
  refine ⟨?_, by decide⟩
  unfold HistoryInv
  decide
theorem witness_EveryOperationCompletes :
    (Request.moveTick both).typed up.params = true ∧ (Instr.load 0#3 0#16).wf = true ∧
    (∀ r ∈ waiting.requests, r.typed waiting.params = true) := by decide
theorem witness_HistoriesGrowAndParametersStay :
    after (perform (.send 1 2 3) sentOnce) (·.txStream.length) = some 6 ∧
    Request.send 1 2 3 ≠ .reset := by
  refine ⟨by decide, by simp⟩
theorem witness_InboundAndOutboundAreSeparate :
    after (perform (.rxByte 0x34#8) sentOnce) (·.rxState) = some (.haveFirst 0x34#8) ∧
    after (perform (.send 1 2 3) sentOnce) (·.rxState) = some .awaitSync := by decide

end Sys2Proof.Tests
end

section
/-! The scope's obligation: the two equations of `step`, one for each form of the list of issued
operations. -/

namespace Sys2Proof.Machine

/-- Operations are served in the order of the list, each in one step (rules R9, R41, R43). -/
theorem step_of_requests_cons {s : State} {r : Request} {rest : List Request}
    (hs : s.requests = r :: rest) : step s = perform r { s with requests := rest } := by
  obtain ⟨hnil, -⟩ | ⟨r', rest', hcons, hstep⟩ := step_cases s
  · exact absurd (hs.symm.trans hnil) (List.cons_ne_nil r rest)
  · obtain ⟨rfl, rfl⟩ := List.cons.inj (hs.symm.trans hcons)
    exact hstep

/-- The unit has no step of its own (rule R41). -/
theorem step_of_requests_nil {s : State} (hs : s.requests = []) : step s = .next s := by
  obtain ⟨-, hstep⟩ | ⟨r, rest, hcons, -⟩ := step_cases s
  · exact hstep
  · exact absurd (hcons.symm.trans hs) (List.cons_ne_nil r rest)

/-- Settles O10, by the case distinction on the list of issued operations. -/
theorem stepServesOneOperation : Obligations.StepServesOneOperation :=
  ⟨fun _ _ _ hs => step_of_requests_cons hs, fun _ hs => step_of_requests_nil hs⟩

end Sys2Proof.Machine
end

section
/-! SUPPORT. What one operation can do to the state, said once: received bytes as Packets received in
order, and the effect of every operation. -/

namespace Sys2Proof.Machine

/-! ### Receipt beside the decoder, the link and the far end -/

/-- `s` with another decoder state, link state and far end: the elements the line's steps and LINK_SET
write, and that receipt of a Packet neither reads nor writes. -/
def State.withLine (s : State) (rx : RxState) (up : Bool) (fe : FarEnd) : State :=
  { s with rxState := rx, linkUp := up, farEnd := fe }

@[simp] theorem State.withLine_tbl (s : State) (rx : RxState) (up : Bool) (fe : FarEnd) :
    (s.withLine rx up fe).tbl = s.tbl := rfl

@[simp] theorem State.withLine_last (s : State) (rx : RxState) (up : Bool) (fe : FarEnd) :
    (s.withLine rx up fe).last = s.last := rfl

@[simp] theorem State.withLine_current (s : State) (rx : RxState) (up : Bool) (fe : FarEnd) :
    (s.withLine rx up fe).current = s.current := rfl

@[simp] theorem State.withLine_target (s : State) (rx : RxState) (up : Bool) (fe : FarEnd) :
    (s.withLine rx up fe).target = s.target := rfl

@[simp] theorem State.withLine_txStream (s : State) (rx : RxState) (up : Bool) (fe : FarEnd) :
    (s.withLine rx up fe).txStream = s.txStream := rfl

@[simp] theorem State.withLine_events (s : State) (rx : RxState) (up : Bool) (fe : FarEnd) :
    (s.withLine rx up fe).events = s.events := rfl

@[simp] theorem State.withLine_results (s : State) (rx : RxState) (up : Bool) (fe : FarEnd) :
    (s.withLine rx up fe).results = s.results := rfl

@[simp] theorem State.withLine_params (s : State) (rx : RxState) (up : Bool) (fe : FarEnd) :
    (s.withLine rx up fe).params = s.params := rfl

theorem received_withLine (s : State) (p : Packet) (rx : RxState) (up : Bool) (fe : FarEnd) :
    (s.withLine rx up fe).received p = (s.received p).withLine rx up fe := by
  unfold State.received State.recordReceived State.emitEv State.setTbl State.withLine
  split_ifs <;> rfl

/-- The state after some Packets are received in order (rule R81). -/
def State.receivedAll (s : State) (ps : List Packet) : State := ps.foldl State.received s

@[simp] theorem receivedAll_nil (s : State) : s.receivedAll [] = s := rfl

@[simp] theorem receivedAll_cons (s : State) (p : Packet) (ps : List Packet) :
    s.receivedAll (p :: ps) = (s.received p).receivedAll ps := rfl

theorem receivedAll_append (s : State) (ps qs : List Packet) :
    s.receivedAll (ps ++ qs) = (s.receivedAll ps).receivedAll qs := List.foldl_append

theorem receivedAll_withLine (s : State) (ps : List Packet) (rx : RxState) (up : Bool)
    (fe : FarEnd) :
    (s.withLine rx up fe).receivedAll ps = (s.receivedAll ps).withLine rx up fe := by
  induction ps generalizing s with
  | nil => rfl
  | cons p ps ih => rw [receivedAll_cons, received_withLine, ih, receivedAll_cons]

/-- Receipt of Packets writes `tbl` and `events` only. -/
theorem receivedAll_frame (s : State) (ps : List Packet) :
    (s.receivedAll ps).rxState = s.rxState ∧ (s.receivedAll ps).last = s.last ∧
    (s.receivedAll ps).current = s.current ∧ (s.receivedAll ps).target = s.target ∧
    (s.receivedAll ps).linkUp = s.linkUp ∧ (s.receivedAll ps).txStream = s.txStream ∧
    (s.receivedAll ps).results = s.results ∧ (s.receivedAll ps).params = s.params ∧
    (s.receivedAll ps).farEnd = s.farEnd ∧ (s.receivedAll ps).requests = s.requests := by
  induction ps generalizing s with
  | nil => simp
  | cons p ps ih =>
    obtain ⟨h1, h2, h3, h4, h5, h6, h7, h8, h9, h10⟩ := ih (s.received p)
    simp [h1, h2, h3, h4, h5, h6, h7, h8, h9, h10]

/-! ### Received bytes (rules R67, R73, R74) -/

/-- Whatever the link, a received byte moves the decoder and delivers some Packets. -/
theorem opRxByte_receives (b : Byte) (s : State) :
    ∃ ps rx, opRxByte b s = .next ((s.receivedAll ps).withLine rx s.linkUp s.farEnd) := by
  obtain ⟨-, h⟩ | ⟨-, -, h⟩ | ⟨p, -, -, h⟩ := opRxByte_cases b s
  · exact ⟨[], s.rxState, h⟩
  · exact ⟨[], _, h⟩
  · exact ⟨[p], _, h.trans (congrArg _ (received_withLine s p _ s.linkUp s.farEnd))⟩

theorem rxBytes_receives (bs : List Byte) (s : State) :
    ∃ ps rx, rxBytes bs s = .next ((s.receivedAll ps).withLine rx s.linkUp s.farEnd) := by
  induction bs generalizing s with
  | nil => exact ⟨[], s.rxState, rfl⟩
  | cons b bs ih =>
    obtain ⟨ps, rx, hb⟩ := opRxByte_receives b s
    obtain ⟨qs, rx', hbs⟩ := ih ((s.receivedAll ps).withLine rx s.linkUp s.farEnd)
    refine ⟨ps ++ qs, rx', ?_⟩
    rw [rxBytes, hb, andThen_next, hbs, receivedAll_withLine, receivedAll_append]
    rfl

theorem opDrain_receives (bs : List Byte) (s : State) :
    ∃ ps rx, opDrain bs s = .next ((s.receivedAll ps).withLine rx s.linkUp s.farEnd) := by
  unfold opDrain
  split
  · exact rxBytes_receives bs s
  · exact ⟨[], s.rxState, rfl⟩

theorem opLineToUnit_receives (n : Nat) (s : State) :
    ∃ ps rx fe, opLineToUnit n s = .next ((s.receivedAll ps).withLine rx s.linkUp fe) := by
  unfold opLineToUnit
  split
  · obtain ⟨ps, rx, h⟩ := opDrain_receives (s.farEnd.sent.take n)
      (s.withLine s.rxState s.linkUp { s.farEnd with sent := s.farEnd.sent.drop n })
    rw [receivedAll_withLine] at h
    exact ⟨ps, rx, _, h⟩
  · exact ⟨[], s.rxState, s.farEnd, rfl⟩

/-! ### The effect of an operation -/

/-- What performing an operation can do to `s`. RESET and the move operations are told apart by name; of
the others it says which primitive of rule R12 they come down to. -/
inductive Effect (s : State) : Request → State → Prop
  /-- RESET (rule R133). -/
  | reset : Effect s .reset (opReset s)
  /-- SET_TARGET (rule R94). -/
  | setTarget (a : Dac) (v : U16) : Effect s (.setTarget a v) (s.writeTarget a v)
  /-- MOVE_TICK (rule R98). -/
  | moveTick (axes : Vector Bool 4) : Effect s (.moveTick axes) (tick axes s)
  /-- MOVE_TO_TARGET (rule R103). -/
  | moveToTarget (m : Vector (Option U16) 4) :
      Effect s (.moveToTarget m) (tick (domainOf m) (s.writeTargets m))
  /-- One frame is sent (rule R63). -/
  | sends (r : Request) (p : Packet) : Effect s r (s.sendFrame p)
  /-- A command is issued directly (rules R88, R89). -/
  | raises (r : Request) (e : Event) (he : e = .cmdInit ∨ e = .cmdSave) : Effect s r (s.emitEv e)
  /-- A value is returned (rules R61, R90). -/
  | returns (r : Request) (x : Result) : Effect s r (s.giveResult x)
  /-- Packets are received, none by a step of the link, the line or the DIM, or by a no-op. -/
  | receives (r : Request) (ps : List Packet) (rx : RxState) (up : Bool) (fe : FarEnd) :
      Effect s r ((s.receivedAll ps).withLine rx up fe)

theorem effect_opSend (v c m : Nat) (s : State) : Effect s (.send v c m) (opSend v c m s) := by
  unfold opSend
  split
  · exact .sends _ _
  · exact .receives _ [] s.rxState s.linkUp s.farEnd

/-- An operation that answers a next state has one of the effects above. -/
theorem effect_of_perform {r : Request} {s t : State} (h : perform r s = .next t) :
    Effect s r t := by
  cases r with
  | encode v c m => cases h; exact .returns _ _
  | send v c m => cases h; exact effect_opSend v c m s
  | rxByte b =>
    obtain ⟨ps, rx, hb⟩ := opRxByte_receives b s
    cases hb.symm.trans h; exact .receives _ ps rx _ _
  | drain bs =>
    obtain ⟨ps, rx, hbs⟩ := opDrain_receives bs s
    cases hbs.symm.trans h; exact .receives _ ps rx _ _
  | opInit => cases h; exact .raises _ _ (.inl rfl)
  | opSave => cases h; exact .raises _ _ (.inr rfl)
  | tblRead c => cases h; exact .returns _ _
  | setTarget a v =>
    simp only [perform, opSetTarget] at h
    split at h <;> cases h
    exact .setTarget a v
  | moveTick axes =>
    simp only [perform, opMoveTick] at h
    split at h <;> cases h
    exact .moveTick axes
  | moveToTarget m =>
    simp only [perform, opMoveToTarget] at h
    split at h <;> cases h
    exact .moveToTarget m
  | linkSet up => cases h; exact .receives _ [] s.rxState up s.farEnd
  | reset => cases h; exact .reset
  | lineToUnit n =>
    obtain ⟨ps, rx, fe, hn⟩ := opLineToUnit_receives n s
    cases hn.symm.trans h; exact .receives _ ps rx _ fe
  | lineToDim n => cases h; exact .receives _ [] s.rxState s.linkUp _
  | lineLosesToDim => cases h; exact .receives _ [] s.rxState s.linkUp _
  | lineNoiseToDim b => cases h; exact .receives _ [] s.rxState s.linkUp _
  | lineLosesToUnit => cases h; exact .receives _ [] s.rxState s.linkUp _
  | dimPowerUp => cases h; exact .receives _ [] s.rxState s.linkUp _
  | dimReading a m v => cases h; exact .receives _ [] s.rxState s.linkUp _
  | dimSends bs => cases h; exact .receives _ [] s.rxState s.linkUp _

/-! ### The Move state is the Move Controller's (rules R19, R141) -/

/-- Settles O46, by the effect of each operation: none of the other effects writes the Move state. -/
theorem moveStateIsWrittenByMovesAndResetOnly :
    Obligations.MoveStateIsWrittenByMovesAndResetOnly := by
  intro r s t h hTick hMove hReset
  cases effect_of_perform h with
  | reset => exact absurd rfl hReset
  | setTarget a v => exact ⟨rfl, fun hSet => absurd rfl (hSet a v)⟩
  | moveTick axes => exact absurd rfl (hTick axes)
  | moveToTarget m => exact absurd rfl (hMove m)
  | sends _ p => simp
  | raises _ e he => simp
  | returns _ x => simp
  | receives _ ps rx up fe =>
    obtain ⟨-, -, hcur, htgt, -⟩ := receivedAll_frame s ps
    simp [hcur, htgt]

end Sys2Proof.Machine
end

section
/-! The histories only grow (rules R13, R22, R23) and the parameters are constants (rule R8). -/

namespace Sys2Proof.Machine

/-- `t` may follow `s`: the same parameters, and every history of `t` begins with that of `s`. -/
structure Grows (s t : State) : Prop where
  params : t.params = s.params
  txStream : s.txStream <+: t.txStream
  events : s.events <+: t.events
  results : s.results <+: t.results

theorem Grows.refl (s : State) : Grows s s :=
  ⟨rfl, List.prefix_rfl, List.prefix_rfl, List.prefix_rfl⟩

theorem Grows.trans {s t u : State} (h : Grows s t) (k : Grows t u) : Grows s u :=
  ⟨k.params.trans h.params, h.txStream.trans k.txStream, h.events.trans k.events,
    h.results.trans k.results⟩

theorem grows_emitEv (s : State) (e : Event) : Grows s (s.emitEv e) := by
  constructor <;> simp

theorem grows_giveResult (s : State) (x : Result) : Grows s (s.giveResult x) := by
  constructor <;> simp

theorem grows_sendFrame (s : State) (p : Packet) : Grows s (s.sendFrame p) := by
  constructor <;> simp

theorem grows_withLine (s : State) (rx : RxState) (up : Bool) (fe : FarEnd) :
    Grows s (s.withLine rx up fe) := by
  constructor <;> simp

theorem grows_received (s : State) (p : Packet) : Grows s (s.received p) := by
  obtain ⟨-, h⟩ | ⟨-, h⟩ | ⟨-, h⟩ | ⟨-, h⟩ := received_cases s p <;> rw [h]
  · constructor <;> simp
  · exact grows_emitEv s _
  · exact grows_emitEv s _
  · exact .refl s

theorem grows_receivedAll (s : State) (ps : List Packet) : Grows s (s.receivedAll ps) := by
  induction ps generalizing s with
  | nil => exact .refl s
  | cons p ps ih => exact (grows_received s p).trans (ih _)

theorem grows_tick (axes : Vector Bool 4) (s : State) : Grows s (tick axes s) := by
  obtain ⟨-, -, -, -, hparams, -, -, hresults⟩ := tick_frame axes s
  have hout : s.txStream <+: (tick axes s).txStream ∧ s.events <+: (tick axes s).events := by
    cases hu : s.linkUp with
    | true =>
      obtain ⟨htx, hev⟩ := tick_outputs_up axes s hu
      simp [htx, hev]
    | false =>
      obtain ⟨htx, hev, -⟩ := tick_outputs_down axes s hu
      simp [htx, hev]
  exact ⟨hparams, hout.1, hout.2, hresults ▸ List.prefix_append _ _⟩

/-- Every effect but that of RESET grows the histories. -/
theorem Effect.grows {s t : State} {r : Request} (h : Effect s r t) (hr : r ≠ .reset) :
    Grows s t := by
  cases h with
  | reset => exact absurd rfl hr
  | setTarget a v => constructor <;> simp
  | moveTick axes => exact grows_tick axes s
  | moveToTarget m =>
    have hwrite : Grows s (s.writeTargets m) := by constructor <;> simp
    exact hwrite.trans (grows_tick _ _)
  | sends _ p => exact grows_sendFrame s p
  | raises _ e he => exact grows_emitEv s e
  | returns _ x => exact grows_giveResult s x
  | receives _ ps rx up fe => exact (grows_receivedAll s ps).trans (grows_withLine _ rx up fe)

/-- Settles O59, by the effect of each operation: RESET takes its parameters from the state before it,
every other effect only appends. -/
theorem historiesGrowAndParametersStay : Obligations.HistoriesGrowAndParametersStay := by
  intro r s t h
  by_cases hr : r = .reset
  · subst hr
    cases h
    exact ⟨rfl, fun hne => absurd rfl hne⟩
  · obtain ⟨hparams, ⟨bs, hbs⟩, ⟨es, hes⟩, ⟨rs, hrs⟩⟩ := (effect_of_perform h).grows hr
    exact ⟨hparams, fun _ => ⟨⟨bs, hbs.symm⟩, ⟨es, hes.symm⟩, ⟨rs, hrs.symm⟩⟩⟩

end Sys2Proof.Machine
end

section
/-! The state agrees with its event history (rules R16, R18, R22, R125): each primitive keeps HistoryInv,
so every effect does, so every step does. -/

namespace Sys2Proof.Machine

/-! ### What one more event adds to the history's readings -/

theorem sentPackets_concat (es : List Event) (e : Event) :
    sentPackets (es ++ [e]) = sentPackets es ++ (sentPacket e).toList := by
  unfold sentPackets
  cases h : sentPacket e <;> simp [h]

theorem lastKnown_concat (c : Channel) (es : List Event) (e : Event) :
    lastKnown c (es ++ [e]) = (channelValue c e).or (lastKnown c es) := by
  unfold lastKnown
  cases h : channelValue c e <;> simp [h]

/-- Read after write at an address that has an entry, whatever the address written. -/
theorem tblAt_setTbl_of_ne (s : State) (c d : Channel) (v : U16) (h : d ≠ cmdAddr) :
    (s.setTbl c v).tblAt d = if c = d then some v else s.tblAt d := by
  by_cases hc : c = cmdAddr
  · simp [hc, h.symm]
  · simp only [tblAt_setTbl s c d v hc, eq_comm]

/-! ### The primitives keep the invariant -/

/-- HistoryInv reads four fields. -/
theorem HistoryInv.congr {s t : State} (h : HistoryInv s) (htx : t.txStream = s.txStream)
    (hev : t.events = s.events) (hlast : t.last = s.last) (htbl : t.tbl = s.tbl) :
    HistoryInv t := by
  unfold HistoryInv at *
  simpa only [htx, hev, hlast, fun c => tblAt_congr t s c htbl] using h

theorem historyInv_powerOn (p : Params) : HistoryInv (State.powerOn p) := by
  have htbl : ∀ c, (State.powerOn p).tblAt c = none := by
    intro c
    fin_cases c <;> rfl
  exact ⟨rfl, rfl, fun c _ => htbl c, htbl cmdAddr⟩

/-- An event that sends nothing and names no channel says nothing of the state. -/
theorem HistoryInv.emitCommand {s : State} (h : HistoryInv s) {e : Event}
    (he : e = .cmdInit ∨ e = .cmdSave) : HistoryInv (s.emitEv e) := by
  obtain ⟨htx, hlast, htbl, hcmd⟩ := h
  have hsent : sentPacket e = none := by obtain rfl | rfl := he <;> rfl
  have hvalue : ∀ c, channelValue c e = none := by obtain rfl | rfl := he <;> exact fun _ => rfl
  refine ⟨?_, ?_, fun c hc => ?_, hcmd⟩
  · simp [sentPackets_concat, hsent, htx]
  · simp [sentPackets_concat, hsent, hlast]
  · rw [tblAt_congr (s.emitEv e) s c (State.emitEv_tbl s e), htbl c hc, State.emitEv_events,
      lastKnown_concat, hvalue, Option.none_or]

theorem HistoryInv.recordReceived {s : State} (h : HistoryInv s) (ch : Channel) (v : U16) :
    HistoryInv (s.recordReceived ch v) := by
  obtain ⟨htx, hlast, htbl, hcmd⟩ := h
  have hread : ∀ c, (s.recordReceived ch v).tblAt c = (s.setTbl ch v).tblAt c :=
    fun c => tblAt_congr _ _ c (State.recordReceived_tbl s ch v)
  refine ⟨?_, ?_, fun c hc => ?_, ?_⟩
  · simp [sentPackets_concat, sentPacket, htx]
  · simp [sentPackets_concat, sentPacket, hlast]
  · rw [hread, tblAt_setTbl_of_ne s ch c v hc, State.recordReceived_events, lastKnown_concat,
      ← htbl c hc, channelValue]
    split <;> rfl
  · rw [hread, tblAt_setTbl_cmdAddr, hcmd]

theorem HistoryInv.sendFrame {s : State} (h : HistoryInv s) (p : Packet) :
    HistoryInv (s.sendFrame p) := by
  obtain ⟨htx, hlast, htbl, hcmd⟩ := h
  have hread : ∀ c, (s.sendFrame p).tblAt c = (s.setTbl p.channel p.value).tblAt c :=
    fun c => tblAt_congr _ _ c (State.sendFrame_tbl s p)
  refine ⟨?_, ?_, fun c hc => ?_, ?_⟩
  · simp [sentPackets_concat, sentPacket, htx]
  · simp [sentPackets_concat, sentPacket]
  · rw [hread, tblAt_setTbl_of_ne s p.channel c p.value hc, State.sendFrame_events,
      lastKnown_concat, ← htbl c hc, channelValue]
    split <;> rfl
  · rw [hread, tblAt_setTbl_cmdAddr, hcmd]

/-! ### The shared operations keep the invariant -/

theorem HistoryInv.received {s : State} (h : HistoryInv s) (p : Packet) :
    HistoryInv (s.received p) := by
  obtain ⟨-, e⟩ | ⟨-, e⟩ | ⟨-, e⟩ | ⟨-, e⟩ := received_cases s p <;> rw [e]
  · exact h.recordReceived _ _
  · exact h.emitCommand (.inl rfl)
  · exact h.emitCommand (.inr rfl)
  · exact h

theorem HistoryInv.receivedAll {s : State} (h : HistoryInv s) (ps : List Packet) :
    HistoryInv (s.receivedAll ps) := by
  induction ps generalizing s with
  | nil => exact h
  | cons p ps ih => exact ih (h.received p)

theorem HistoryInv.sendFrames {s : State} (h : HistoryInv s) (ps : List Packet) :
    HistoryInv (s.sendFrames ps) := by
  induction ps generalizing s with
  | nil => exact h
  | cons p ps ih => exact ih (h.sendFrame p)

/-- A tick sends frames, or with the link down none; the rest of it no history reports. -/
theorem HistoryInv.tick {s : State} (h : HistoryInv s) (axes : Vector Bool 4) :
    HistoryInv (tick axes s) := by
  have hslew : HistoryInv (s.slewAxes axes) := h.congr rfl rfl rfl rfl
  simp only [Machine.tick]
  split
  · exact (hslew.sendFrames _).congr rfl rfl rfl rfl
  · exact hslew.congr rfl rfl rfl rfl

theorem HistoryInv.of_effect {s t : State} {r : Request} (h : HistoryInv s) (he : Effect s r t) :
    HistoryInv t := by
  cases he with
  | reset => exact (historyInv_powerOn s.params).congr rfl rfl rfl rfl
  | setTarget a v => exact h.congr rfl rfl rfl rfl
  | moveTick axes => exact h.tick axes
  | moveToTarget m =>
    have hwrite : HistoryInv (s.writeTargets m) := h.congr rfl rfl rfl rfl
    exact hwrite.tick _
  | sends _ p => exact h.sendFrame p
  | raises _ e he => exact h.emitCommand he
  | returns _ x => exact h.congr rfl rfl rfl rfl
  | receives _ ps rx up fe => exact (h.receivedAll ps).congr rfl rfl rfl rfl

/-- Settles O57, by the effect of the operation the step serves: each keeps the invariant. -/
theorem stepKeepsHistoryInvariant : Obligations.StepKeepsHistoryInvariant := by
  intro s t hs ht
  obtain ⟨-, hidle⟩ | ⟨r, rest, -, hserve⟩ := step_cases s
  · cases hidle.symm.trans ht
    exact hs
  · have hrest : HistoryInv { s with requests := rest } := hs.congr rfl rfl rfl rfl
    exact hrest.of_effect (effect_of_perform (hserve.symm.trans ht))

end Sys2Proof.Machine
end

section
/-! Inbound and outbound operations are separate (rule R43): receipt keeps what sending and moving write,
and sending and moving keep the decoder, the link and the far end. -/

namespace Sys2Proof.Machine

/-! ### Receipt -/

/-- `t` has the sending state, the Move state, the link and the far end of `s`. -/
structure KeepsOutbound (s t : State) : Prop where
  last : t.last = s.last
  txStream : t.txStream = s.txStream
  current : t.current = s.current
  target : t.target = s.target
  linkUp : t.linkUp = s.linkUp
  farEnd : t.farEnd = s.farEnd

/-- Packets received and a decoder state written keep all of it. -/
theorem keepsOutbound_receivedAll (s : State) (ps : List Packet) (rx : RxState) :
    KeepsOutbound s ((s.receivedAll ps).withLine rx s.linkUp s.farEnd) := by
  obtain ⟨-, hlast, hcurrent, htarget, -, htx, -⟩ := receivedAll_frame s ps
  exact ⟨hlast, htx, hcurrent, htarget, rfl, rfl⟩

theorem keepsOutbound_of_opRxByte {b : Byte} {s t : State} (h : opRxByte b s = .next t) :
    KeepsOutbound s t := by
  obtain ⟨ps, rx, hb⟩ := opRxByte_receives b s
  cases hb.symm.trans h
  exact keepsOutbound_receivedAll s ps rx

theorem keepsOutbound_of_opDrain {bs : List Byte} {s t : State} (h : opDrain bs s = .next t) :
    KeepsOutbound s t := by
  obtain ⟨ps, rx, hbs⟩ := opDrain_receives bs s
  cases hbs.symm.trans h
  exact keepsOutbound_receivedAll s ps rx

/-! ### Sending and moving -/

/-- `t` has the decoder, the link and the far end of `s`. -/
structure KeepsInbound (s t : State) : Prop where
  rxState : t.rxState = s.rxState
  linkUp : t.linkUp = s.linkUp
  farEnd : t.farEnd = s.farEnd

theorem keepsInbound_opSend (v c m : Nat) (s : State) : KeepsInbound s (opSend v c m s) := by
  unfold opSend
  split
  · constructor <;> simp
  · exact ⟨rfl, rfl, rfl⟩

theorem keepsInbound_tick (axes : Vector Bool 4) (s : State) : KeepsInbound s (tick axes s) := by
  obtain ⟨-, -, hrx, hlink, -, hfar, -⟩ := tick_frame axes s
  exact ⟨hrx, hlink, hfar⟩

/-- An operation that is refused unless its addresses are axes (log entry 14) answers, when it answers a
next state, the one of its definition. -/
theorem eq_of_guarded_next {p : Prop} [Decidable p] {t u : State} {e : Refusal}
    (h : (if p then .next u else .refused e : Outcome) = .next t) : t = u := by
  split at h <;> cases h
  rfl

theorem keepsInbound_of_opSetTarget {a : Dac} {v : U16} {s t : State}
    (h : opSetTarget a v s = .next t) : KeepsInbound s t := by
  rw [eq_of_guarded_next h]
  constructor <;> simp

theorem keepsInbound_of_opMoveTick {axes : Vector Bool 4} {s t : State}
    (h : opMoveTick axes s = .next t) : KeepsInbound s t := by
  rw [eq_of_guarded_next h]
  exact keepsInbound_tick axes s

/-- The targets written before the tick are no part of the inbound state. -/
theorem keepsInbound_of_opMoveToTarget {m : Vector (Option U16) 4} {s t : State}
    (h : opMoveToTarget m s = .next t) : KeepsInbound s t := by
  rw [eq_of_guarded_next h]
  obtain ⟨hrx, hlink, hfar⟩ := keepsInbound_tick (domainOf m) (s.writeTargets m)
  exact ⟨hrx, hlink, hfar⟩

/-! ### The two sides -/

/-- Settles O60, by the frame of each operation named. -/
theorem inboundAndOutboundAreSeparate : Obligations.InboundAndOutboundAreSeparate := by
  intro r s t h
  constructor
  · intro hr
    have hkeep : KeepsOutbound s t := by
      obtain ⟨b, rfl⟩ | ⟨bs, rfl⟩ := hr
      · exact keepsOutbound_of_opRxByte h
      · exact keepsOutbound_of_opDrain h
    exact ⟨hkeep.last, hkeep.txStream, hkeep.current, hkeep.target, hkeep.linkUp, hkeep.farEnd⟩
  · intro hr
    have hkeep : KeepsInbound s t := by
      obtain ⟨v, c, m, rfl⟩ | ⟨a, v, rfl⟩ | ⟨axes, rfl⟩ | ⟨m, rfl⟩ := hr
      · cases h
        exact keepsInbound_opSend v c m s
      · exact keepsInbound_of_opSetTarget h
      · exact keepsInbound_of_opMoveTick h
      · exact keepsInbound_of_opMoveToTarget h
    exact ⟨hkeep.rxState, hkeep.linkUp, hkeep.farEnd⟩

end Sys2Proof.Machine
end

section
/-! Decode and encode agree (rules R52, R60, R75), and what decoding at a frame boundary rejects (rules
R55, R68, R72). -/

namespace Sys2Proof

/-! ### Encode, then decode -/

/-- The frame of a Packet is read as the Packet's class by either decoder: its markers pass every test. -/
@[simp] theorem decodeWith_encodePacket (strict : Bool) (p : Packet) (rest : List Byte) :
    decodeWith strict ((encodePacket p).bytes ++ rest) = .ok (classify p, rest) := by
  simp [Frame.bytes, decodeWith_three]

theorem decodeWith_encode {i : Instr} (h : i.wf = true) (strict : Bool) (rest : List Byte) :
    decodeWith strict ((encode i).bytes ++ rest) = .ok (i, rest) := by
  rw [encode, decodeWith_encodePacket, classify_packet i h]

/-- Settles O14: the frame is read as the class of the instruction's Packet, which is the instruction. -/
theorem decodeOfEncodeIsTheInstruction : Obligations.DecodeOfEncodeIsTheInstruction :=
  fun _ strict rest h => decodeWith_encode h strict rest

/-! ### Decode, then encode -/

theorem decode_encode {i : Instr} (h : i.wf = true) : decode (encode i).bytes = .ok (i, []) := by
  simpa [decode] using decodeWith_encode h false []

theorem encode_classify (p : Packet) : encode (classify p) = encodePacket p := by
  rw [encode, packet_classify]

/-- No two well-formed instructions share a frame: decoding tells them apart. -/
theorem encode_inj_of_wf {i j : Instr} (hi : i.wf = true) (hj : j.wf = true)
    (h : encode i = encode j) : i = j := by
  have hok : Except.ok (ε := DecodeError) (i, ([] : List Byte)) = .ok (j, []) := by
    rw [← decode_encode hi, h, decode_encode hj]
  cases hok
  rfl

/-- Settles O15: the instruction is the class of the Packet the frame carries. -/
theorem everyWellFormedFrameEncodesOneInstruction :
    Obligations.EveryWellFormedFrameEncodesOneInstruction := by
  intro f hf
  obtain ⟨i, hi, rfl⟩ : ∃ i : Instr, i.wf = true ∧ encode i = f :=
    ⟨classify (assemble f.byte0 f.byte1 f.byte2), classify_wf _,
      (encode_classify _).trans (encodePacket_assemble f hf)⟩
  exact ⟨i, hi, rfl, decode_encode hi, fun j hj h => encode_inj_of_wf hj hi h⟩

/-! ### Words of the table -/

/-- Settles O16, by running the decoder on each word. -/
theorem specWordsDecodeToTheirClass : Obligations.SpecWordsDecodeToTheirClass := by
  unfold Obligations.SpecWordsDecodeToTheirClass
  decide

/-! ### What decoding rejects -/

theorem isSync_eq_true_iff (b : Byte) : isSync b = true ↔ b.getLsbD 7 = false := by
  simp [isSync]

theorem isSync_eq_false_iff (b : Byte) : isSync b = false ↔ b.getLsbD 7 = true := by
  simp [isSync]

/-- Everything decoding at a frame boundary can answer, with the condition of each answer. -/
theorem decodeWith_cases (strict : Bool) (bs : List Byte) :
    (bs.length < 3 ∧ decodeWith strict bs = .error .incomplete) ∨
    ∃ b0 b1 b2 rest, bs = b0 :: b1 :: b2 :: rest ∧
      ((isSync b0 = false ∧ decodeWith strict bs = .error (.notSync b0)) ∨
      (isSync b0 = true ∧ (strict && (isSync b1 || isSync b2)) = true ∧
        decodeWith strict bs = .error .badContinuation) ∨
      (isSync b0 = true ∧ (strict && (isSync b1 || isSync b2)) = false ∧
        decodeWith strict bs = .ok (classify (assemble b0 b1 b2), rest))) := by
  match bs with
  | [] | [_] | [_, _] => exact .inl ⟨by simp, rfl⟩
  | b0 :: b1 :: b2 :: rest =>
    refine .inr ⟨b0, b1, b2, rest, rfl, ?_⟩
    rw [decodeWith_three]
    cases isSync b0 with
    | false => simp
    | true => cases strict && (isSync b1 || isSync b2) <;> simp

theorem decodeWith_eq_incomplete_iff (strict : Bool) (bs : List Byte) :
    decodeWith strict bs = .error .incomplete ↔ bs.length < 3 := by
  obtain ⟨hlen, e⟩ | ⟨b0, b1, b2, rest, rfl, ⟨-, e⟩ | ⟨-, -, e⟩ | ⟨-, -, e⟩⟩ :=
    decodeWith_cases strict bs <;> simp [e]
  exact hlen

theorem decodeWith_eq_notSync_iff (strict : Bool) (bs : List Byte) (b : Byte) :
    decodeWith strict bs = .error (.notSync b) ↔
      3 ≤ bs.length ∧ bs.head? = some b ∧ isSync b = false := by
  obtain ⟨hlen, e⟩ | ⟨b0, b1, b2, rest, rfl, ⟨h0, e⟩ | ⟨h0, -, e⟩ | ⟨h0, -, e⟩⟩ :=
    decodeWith_cases strict bs <;> rw [e]
  · simp [Nat.not_le.mpr hlen]
  all_goals simpa using fun h : b0 = b => h ▸ h0

theorem decodeWith_eq_badContinuation_iff (strict : Bool) (bs : List Byte) :
    decodeWith strict bs = .error .badContinuation ↔
      strict = true ∧ ∃ b0 b1 b2 rest, bs = b0 :: b1 :: b2 :: rest ∧ isSync b0 = true ∧
        (isSync b1 = true ∨ isSync b2 = true) := by
  constructor
  · intro h
    obtain ⟨-, e⟩ | ⟨b0, b1, b2, rest, hbs, ⟨-, e⟩ | ⟨h0, hcont, e⟩ | ⟨-, -, e⟩⟩ :=
      decodeWith_cases strict bs <;> cases e.symm.trans h
    obtain ⟨hstrict, hsync⟩ := Bool.and_eq_true_iff.mp hcont
    exact ⟨hstrict, b0, b1, b2, rest, hbs, h0, Bool.or_eq_true_iff.mp hsync⟩
  · rintro ⟨rfl, b0, b1, b2, rest, rfl, h0, hsync⟩
    simp [decodeWith_three, h0, hsync]

/-- Settles O18, by the case distinction on what decoding can answer. -/
theorem decodingRejectsByName : Obligations.DecodingRejectsByName := by
  intro strict bs
  simp only [← isSync_eq_true_iff, ← isSync_eq_false_iff]
  exact ⟨decodeWith_eq_incomplete_iff strict bs, decodeWith_eq_notSync_iff strict bs,
    decodeWith_eq_badContinuation_iff strict bs⟩

end Sys2Proof
end

section
/-! ENCODE and the frame format (rules R48, R61, R62), and SEND with the link down (rule R64). -/

namespace Sys2Proof

/-! ### The layout of a frame in numbers (rule R61) -/

theorem byte0_toNat_encodePacket (p : Packet) :
    (encodePacket p).byte0.toNat =
      (p.channel.toNat <<< 4) ||| (p.mode.toNat <<< 2) ||| (p.value.toNat >>> 14) := by
  have hv : p.value.toNat >>> 14 < 2 ^ 2 := by
    rw [Nat.shiftRight_eq_div_pow]
    omega
  simp only [encodePacket, BitVec.toNat_append, BitVec.extractLsb'_toNat, Nat.mod_eq_of_lt hv]
  simp [Nat.shiftLeft_or_distrib, ← Nat.shiftLeft_add]

/-- A continuation byte is its marker over the seven bits of the value from bit `k` up. -/
theorem toNat_continuation (v : U16) (k : Nat) :
    (1#1 ++ v.extractLsb' k 7).toNat = 0x80 ||| ((v.toNat >>> k) &&& 0x7F) := by
  rw [BitVec.toNat_append, BitVec.extractLsb'_toNat, ← Nat.and_two_pow_sub_one_eq_mod]
  rfl

theorem byte1_toNat_encodePacket (p : Packet) :
    (encodePacket p).byte1.toNat = 0x80 ||| ((p.value.toNat >>> 7) &&& 0x7F) :=
  toNat_continuation p.value 7

theorem byte2_toNat_encodePacket (p : Packet) :
    (encodePacket p).byte2.toNat = 0x80 ||| (p.value.toNat &&& 0x7F) :=
  toNat_continuation p.value 0

/-- Settles O11: the layout of a frame, at the masked Packet, whose fields as numbers are the residues. -/
theorem encodeFollowsThePseudocode : Obligations.EncodeFollowsThePseudocode := by
  intro value channel mode
  let p := maskFields value channel mode
  exact ⟨byte0_toNat_encodePacket p, byte1_toNat_encodePacket p, byte2_toNat_encodePacket p,
    fun _ => rfl⟩

/-! ### ENCODE and its operands (rule R62) -/

/-- A frame carries its Packet: assembling the fields gives it back. -/
theorem encodePacket_inj {p q : Packet} : encodePacket p = encodePacket q ↔ p = q := by
  constructor
  · intro h
    rw [← assemble_encodePacket p, h, assemble_encodePacket]
  · exact congrArg encodePacket

theorem maskFields_eq_iff (v c m v' c' m' : Nat) :
    maskFields v c m = maskFields v' c' m' ↔
      v % 2 ^ 16 = v' % 2 ^ 16 ∧ c % 8 = c' % 8 ∧ m % 4 = m' % 4 := by
  simp only [maskFields, Packet.mk.injEq, ← BitVec.toNat_inj, BitVec.toNat_ofNat]
  exact and_rotate.symm

/-- Settles O12: the frame determines the masked Packet, which is the three residues. -/
theorem encodeIsDecidedByTheResidues : Obligations.EncodeIsDecidedByTheResidues :=
  fun v c m v' c' m' => ⟨encodePacket_inj.trans (maskFields_eq_iff v c m v' c' m'), encodePacket_wf _⟩

/-! ### Well-formed frames (rule R48) -/

theorem wf_iff_markers (f : Frame) :
    f.wf = true ↔
      f.byte0.getLsbD 7 = false ∧ f.byte1.getLsbD 7 = true ∧ f.byte2.getLsbD 7 = true := by
  simp [Frame.wf, isSync_eq_true_iff, isSync_eq_false_iff, and_assoc]

/-- Fields that already fit are not changed by masking, so every Packet is the Packet of some operands. -/
theorem maskFields_toNat (p : Packet) :
    maskFields p.value.toNat p.channel.toNat p.mode.toNat = p := by
  simp [maskFields]

theorem wf_iff_exists_encodeFields (f : Frame) :
    f.wf = true ↔ ∃ value channel mode : Nat, encodeFields value channel mode = f := by
  constructor
  · intro h
    let p := assemble f.byte0 f.byte1 f.byte2
    refine ⟨p.value.toNat, p.channel.toNat, p.mode.toNat, ?_⟩
    rw [encodeFields, maskFields_toNat]
    exact encodePacket_assemble f h
  · rintro ⟨value, channel, mode, rfl⟩
    exact encodePacket_wf _

theorem and_markerMask_eq_iff (w : BitVec 24) :
    w &&& 0x808080#24 = 0x008080#24 ↔
      w.getLsbD 23 = false ∧ w.getLsbD 15 = true ∧ w.getLsbD 7 = true := by
  constructor
  · intro h
    have bit (i : Nat) : (w &&& 0x808080#24).getLsbD i = (0x008080#24).getLsbD i := by rw [h]
    exact ⟨by simpa using bit 23, by simpa using bit 15, by simpa using bit 7⟩
  · rintro ⟨h0, h1, h2⟩
    apply BitVec.eq_of_getLsbD_eq
    intro i hi
    rw [BitVec.getLsbD_and]
    interval_cases i <;> simp_all

/-- The marker bits are bits 23, 15 and 7 of the frame's 24-bit word (rule R47). -/
theorem wf_iff_word (f : Frame) : f.wf = true ↔ f.word &&& 0x808080#24 = 0x008080#24 := by
  rw [wf_iff_markers, and_markerMask_eq_iff]
  simp only [Frame.word, BitVec.getLsbD_append]
  simp

/-- Settles O13, one equivalence per reading of well-formedness. -/
theorem wellFormedFramesAreTheEncodings : Obligations.WellFormedFramesAreTheEncodings :=
  fun f => ⟨wf_iff_markers f, wf_iff_exists_encodeFields f, wf_iff_word f⟩

end Sys2Proof

namespace Sys2Proof.Machine

/-! ### SEND with the link down (rule R64) -/

theorem opSend_of_linkDown (value channel mode : Nat) {s : State} (h : s.linkUp = false) :
    opSend value channel mode s = s := by
  simp [opSend, h]

/-- Settles O31: SEND is guarded by the link state. -/
theorem sendWithLinkDownIsANoOp : Obligations.SendWithLinkDownIsANoOp :=
  fun value channel mode _ h => congrArg Host.Outcome.next (opSend_of_linkDown value channel mode h)

end Sys2Proof.Machine
end

section
/-! Rule R15's invariant, for both decoders, and the line's position: each operation keeps DecoderInv, so
every step does. -/

namespace Sys2Proof.Machine

/-! ### Sending, moving and returning -/

/-- An operation that leaves decoder and far end alone and only adds to `tx_stream` keeps the invariant. -/
theorem DecoderInv.of_keepsInbound {s t : State} (h : DecoderInv s) (hkeep : KeepsInbound s t)
    (htx : s.txStream <+: t.txStream) : DecoderInv t := by
  obtain ⟨hrx, hfe, htaken⟩ := h
  refine ⟨hkeep.rxState ▸ hrx, hkeep.farEnd ▸ hfe, ?_⟩
  rw [hkeep.farEnd]
  exact htaken.trans htx.length_le

/-! ### Receipt (rules R67, R73) -/

theorem DecoderInv.opRxByte {b : Byte} {s t : State} (h : DecoderInv s)
    (ht : opRxByte b s = .next t) : DecoderInv t := by
  obtain ⟨hrx, hfe, htaken⟩ := h
  have hstep := decodeStep_keeps_sync s.params.strictCont s.rxState b hrx
  obtain ⟨-, e⟩ | ⟨-, -, e⟩ | ⟨p, -, -, e⟩ := opRxByte_cases b s <;> cases e.symm.trans ht
  · exact ⟨hrx, hfe, htaken⟩
  · exact ⟨hstep, hfe, htaken⟩
  · simpa [DecoderInv] using And.intro hstep ⟨hfe, htaken⟩

theorem DecoderInv.rxBytes {bs : List Byte} {s t : State} (h : DecoderInv s)
    (ht : rxBytes bs s = .next t) : DecoderInv t := by
  induction bs generalizing s with
  | nil =>
    cases ht
    exact h
  | cons b bs ih =>
    obtain ⟨u, hb, hbs⟩ := andThen_eq_next.mp ht
    exact ih (h.opRxByte hb) hbs

theorem DecoderInv.opDrain {bs : List Byte} {s t : State} (h : DecoderInv s)
    (ht : opDrain bs s = .next t) : DecoderInv t := by
  unfold Machine.opDrain at ht
  split at ht
  · exact h.rxBytes ht
  · cases ht
    exact h

/-- What the DIM has sent is no part of the invariant, so taking bytes off it changes nothing. -/
theorem DecoderInv.opLineToUnit {n : Nat} {s t : State} (h : DecoderInv s)
    (ht : opLineToUnit n s = .next t) : DecoderInv t := by
  unfold Machine.opLineToUnit at ht
  split at ht
  · have htake : DecoderInv { s with farEnd := { s.farEnd with sent := s.farEnd.sent.drop n } } := h
    exact htake.opDrain ht
  · cases ht
    exact h

/-! ### The line to the DIM (log entry 11) -/

/-- Whatever bytes arrive, the DIM's decoder keeps rule R15's invariant and the line's position stays. -/
theorem feBytes_keeps (strict : Bool) (fe : FarEnd) (bs : List Byte) (h : holdsSync fe.rx = true) :
    holdsSync (feBytes strict fe bs).rx = true ∧ (feBytes strict fe bs).taken = fe.taken := by
  induction bs generalizing fe with
  | nil => exact ⟨h, rfl⟩
  | cons b bs ih =>
    obtain ⟨hsync, htaken⟩ := ih (feByte strict fe b) (feByte_keeps_sync strict fe b h)
    exact ⟨hsync, htaken.trans (feByte_taken strict fe b)⟩

/-- The line takes no byte that was not written. -/
theorem taken_add_inFlight_le {s : State} (n : Nat) (h : s.farEnd.taken ≤ s.txStream.length) :
    s.farEnd.taken + (s.inFlight n).length ≤ s.txStream.length := by
  simp only [State.inFlight, List.length_take, List.length_drop]
  omega

theorem DecoderInv.opLineToDim {s : State} (h : DecoderInv s) (n : Nat) :
    DecoderInv (opLineToDim n s) := by
  obtain ⟨hrx, hfe, htaken⟩ := h
  obtain ⟨hsync, hstay⟩ := feBytes_keeps s.params.dimStrict s.farEnd (s.inFlight n) hfe
  refine ⟨hrx, hsync, ?_⟩
  simp only [Machine.opLineToDim, hstay]
  exact taken_add_inFlight_le n htaken

theorem DecoderInv.opLineLosesToDim {s : State} (h : DecoderInv s) :
    DecoderInv (opLineLosesToDim s) := by
  obtain ⟨hrx, hfe, htaken⟩ := h
  exact ⟨hrx, hfe, taken_add_inFlight_le 1 htaken⟩

theorem DecoderInv.opLineNoiseToDim {s : State} (h : DecoderInv s) (b : Byte) :
    DecoderInv (opLineNoiseToDim b s) := by
  obtain ⟨hrx, hfe, htaken⟩ := h
  refine ⟨hrx, feByte_keeps_sync s.params.dimStrict s.farEnd b hfe, ?_⟩
  rw [opLineNoiseToDim_farEnd, feByte_taken]
  exact htaken

/-! ### Every operation, every step -/

/-- RESET puts the unit's decoder at a frame boundary and the line at position 0 (rule R133). -/
theorem DecoderInv.opReset {s : State} (h : DecoderInv s) : DecoderInv (opReset s) := by
  obtain ⟨-, hfe, -⟩ := h
  exact ⟨rfl, hfe, Nat.zero_le _⟩

/-- A power-up of the DIM puts its decoder at a frame boundary (rule R108). -/
theorem DecoderInv.opDimPowerUp {s : State} (h : DecoderInv s) : DecoderInv (opDimPowerUp s) := by
  obtain ⟨hrx, -, htaken⟩ := h
  exact ⟨hrx, rfl, htaken⟩

theorem DecoderInv.perform {r : Request} {s t : State} (h : DecoderInv s)
    (ht : perform r s = .next t) : DecoderInv t := by
  have hgrows (hr : r ≠ .reset) : s.txStream <+: t.txStream :=
    ((effect_of_perform ht).grows hr).txStream
  cases r with
  | encode v c m => cases ht; exact h
  | send v c m =>
    cases ht
    exact h.of_keepsInbound (keepsInbound_opSend v c m s) (hgrows nofun)
  | rxByte b => exact h.opRxByte ht
  | drain bs => exact h.opDrain ht
  | opInit => cases ht; exact h
  | opSave => cases ht; exact h
  | tblRead c => cases ht; exact h
  | setTarget a v => exact h.of_keepsInbound (keepsInbound_of_opSetTarget ht) (hgrows nofun)
  | moveTick axes => exact h.of_keepsInbound (keepsInbound_of_opMoveTick ht) (hgrows nofun)
  | moveToTarget m => exact h.of_keepsInbound (keepsInbound_of_opMoveToTarget ht) (hgrows nofun)
  | linkSet up => cases ht; exact h
  | reset => cases ht; exact h.opReset
  | lineToDim n => cases ht; exact h.opLineToDim n
  | lineLosesToDim => cases ht; exact h.opLineLosesToDim
  | lineNoiseToDim b => cases ht; exact h.opLineNoiseToDim b
  | lineToUnit n => exact h.opLineToUnit ht
  | lineLosesToUnit => cases ht; exact h
  | dimPowerUp => cases ht; exact h.opDimPowerUp
  | dimReading a m v => cases ht; exact h
  | dimSends bs => cases ht; exact h

/-- Settles O56, by the operation the step serves: each keeps the invariant. -/
theorem stepKeepsDecoderInvariant : Obligations.StepKeepsDecoderInvariant := by
  intro s t hs ht
  obtain ⟨-, hidle⟩ | ⟨r, rest, -, hserve⟩ := step_cases s
  · cases hidle.symm.trans ht
    exact hs
  · have hrest : DecoderInv { s with requests := rest } := hs
    exact hrest.perform (hserve.symm.trans ht)

end Sys2Proof.Machine
end

section
/-! The decoder on single bytes (rules R68 to R72): which bytes each state accepts, and where the strict
decoder starts over. -/

namespace Sys2Proof

/-! ### One step -/

/-- In HaveFirst every byte is captured, but a sync byte by the strict decoder (rules R69, R72). -/
theorem decodeStep_haveFirst {strict : Bool} {b : Byte} (h : (strict && isSync b) = false)
    (b0 : Byte) : decodeStep strict (.haveFirst b0) b = (.haveSecond b0 b, none) := by
  simp [decodeStep, h]

/-- In HaveSecond every byte completes a Packet, but a sync byte to the strict decoder (rules R70, R72). -/
theorem decodeStep_haveSecond {strict : Bool} {b : Byte} (h : (strict && isSync b) = false)
    (b0 b1 : Byte) :
    decodeStep strict (.haveSecond b0 b1) b = (.awaitSync, some (assemble b0 b1 b)) := by
  simp [decodeStep, h]

/-- To the strict decoder a sync byte is a new byte0 in every state (rule R72). -/
theorem decodeStep_strict_sync {b : Byte} (h : isSync b = true) (rx : RxState) :
    decodeStep true rx b = (.haveFirst b, none) := by
  cases rx <;> simp [decodeStep, h]

/-- To a continuation byte the strict decoder does what the lax one does. -/
theorem decodeStep_strict_eq_lax {b : Byte} (h : isSync b = false) (rx : RxState) :
    decodeStep true rx b = decodeStep false rx b := by
  cases rx <;> simp [decodeStep, h]

/-- No Packet completes in AwaitSync (rule R68). -/
@[simp] theorem decodeStep_awaitSync_snd (strict : Bool) (b : Byte) :
    (decodeStep strict .awaitSync b).2 = none := by
  simp only [decodeStep]
  split <;> rfl

/-- No Packet completes in HaveFirst (rules R69, R72). -/
@[simp] theorem decodeStep_haveFirst_snd (strict : Bool) (b0 b : Byte) :
    (decodeStep strict (.haveFirst b0) b).2 = none := by
  simp only [decodeStep]
  split <;> rfl

theorem isSync_of_decodeStep_strict_some {rx rx' : RxState} {b : Byte} {p : Packet}
    (h : decodeStep true rx b = (rx', some p)) : isSync b = false := by
  obtain ⟨e, -⟩ | ⟨e, -⟩ | ⟨b0, -, e, -⟩ | ⟨b0, b1, -, -, hb⟩ := decodeStep_cases true rx b
  · cases e.symm.trans h
  · cases e.symm.trans h
  · cases e.symm.trans h
  · exact hb

theorem isSync_of_decodeStep_strict_haveSecond {rx : RxState} {b b0 b1 : Byte}
    (h : (decodeStep true rx b).1 = .haveSecond b0 b1) : isSync b1 = false := by
  obtain ⟨e, -⟩ | ⟨e, -⟩ | ⟨c0, -, e, hb⟩ | ⟨c0, c1, -, e, -⟩ := decodeStep_cases true rx b <;>
    rw [e] at h <;> cases h
  exact hb

/-- Settles O19, one transition per state and marker bit. -/
theorem laxDecoderTransitions : Obligations.LaxDecoderTransitions := by
  intro b b0 b1
  simp only [← isSync_eq_true_iff, ← isSync_eq_false_iff]
  exact ⟨decodeStep_noise false b, decodeStep_sync false b, decodeStep_haveFirst rfl b0,
    decodeStep_haveSecond rfl b0 b1⟩

end Sys2Proof
end

section
/-! The decoder on streams of frames (rules R72 to R75): frames decode to their Packets, noise between
frames is discarded, and the strict decoder starts over at every byte0. -/

namespace Sys2Proof.Machine

/-! ### Runs from AwaitSync -/

/-- Continuation bytes at a frame boundary are discarded (rule R68). -/
theorem decodeRun_noise (strict : Bool) {bs : List Byte} (h : ∀ b ∈ bs, isSync b = false) :
    decodeRun strict .awaitSync bs = (.awaitSync, []) := by
  induction bs with
  | nil => rfl
  | cons b bs ih =>
    obtain ⟨hb, hbs⟩ := List.forall_mem_cons.mp h
    simp [decodeRun_cons, decodeStep_noise strict b hb, ih hbs]

/-- Fewer than three bytes at a frame boundary complete no Packet. -/
theorem decodeRun_short (strict : Bool) {bs : List Byte} (h : bs.length < 3) :
    (decodeRun strict .awaitSync bs).2 = [] := by
  match bs with
  | [] => rfl
  | [b] => simp [decodeRun_cons]
  | [b0, b1] =>
    cases h0 : isSync b0 with
    | true => simp [decodeRun_cons, decodeStep_sync strict b0 h0]
    | false => simp [decodeRun_cons, decodeStep_noise strict b0 h0]

/-- A sync byte and two bytes the decoder accepts give one Packet, well-formed or not; continuation bytes
left over after them are discarded. -/
theorem decodeRun_three_noise {strict : Bool} {b0 b1 b2 : Byte} {bs : List Byte}
    (h0 : isSync b0 = true) (h1 : (strict && isSync b1) = false)
    (h2 : (strict && isSync b2) = false) (hbs : ∀ b ∈ bs, isSync b = false) :
    decodeRun strict .awaitSync (b0 :: b1 :: b2 :: bs) = (.awaitSync, [assemble b0 b1 b2]) := by
  simp [decodeRun_cons, decodeStep_sync strict b0 h0, decodeStep_haveFirst h1,
    decodeStep_haveSecond h2, decodeRun_noise strict hbs]

@[simp] theorem decodeRun_encodePacket (strict : Bool) (p : Packet) :
    decodeRun strict .awaitSync (encodePacket p).bytes = (.awaitSync, [p]) := by
  have h := decodeRun_three_noise (strict := strict) (bs := []) (isSync_byte0 p)
    (b1 := (encodePacket p).byte1) (b2 := (encodePacket p).byte2) (by simp) (by simp) (by simp)
  rwa [assemble_encodePacket] at h

/-- A stream of frames decodes to its Packets, with either decoder (rule R75). -/
@[simp] theorem decodeRun_wire (strict : Bool) (ps : List Packet) :
    decodeRun strict .awaitSync (wire ps) = (.awaitSync, ps) := by
  induction ps with
  | nil => rfl
  | cons p ps ih => simp [decodeRun_append, ih]

/-- Bytes between frames that leave the decoder at a frame boundary touch no frame before or after. -/
theorem decodeRun_between {strict : Bool} {bs : List Byte} {ms : List Packet}
    (h : decodeRun strict .awaitSync bs = (.awaitSync, ms)) (ps qs : List Packet) :
    decodeRun strict .awaitSync (wire ps ++ bs ++ wire qs) = (.awaitSync, ps ++ ms ++ qs) := by
  simp [decodeRun_append, h]

/-- Continuation bytes between frames are discarded. -/
theorem decodeRun_between_noise (strict : Bool) {bs : List Byte} (h : ∀ b ∈ bs, isSync b = false)
    (ps qs : List Packet) :
    decodeRun strict .awaitSync (wire ps ++ bs ++ wire qs) = (.awaitSync, ps ++ qs) := by
  simpa only [List.append_nil] using decodeRun_between (decodeRun_noise strict h) ps qs

/-- Three accepted bytes between frames, with any continuation bytes after them, give one Packet. -/
theorem decodeRun_between_three {strict : Bool} {b0 b1 b2 : Byte} {bs : List Byte}
    (h0 : isSync b0 = true) (h1 : (strict && isSync b1) = false)
    (h2 : (strict && isSync b2) = false) (hbs : ∀ b ∈ bs, isSync b = false) (ps qs : List Packet) :
    decodeRun strict .awaitSync (wire ps ++ b0 :: b1 :: b2 :: bs ++ wire qs) =
      (.awaitSync, ps ++ [assemble b0 b1 b2] ++ qs) :=
  decodeRun_between (decodeRun_three_noise h0 h1 h2 hbs) ps qs

/-! ### The strict decoder starts over at a sync byte -/

theorem decodeRun_strict_sync {b : Byte} (h : isSync b = true) (rx : RxState) (bs : List Byte) :
    decodeRun true rx (b :: bs) = decodeRun true .awaitSync (b :: bs) := by
  simp only [decodeRun_cons, decodeStep_strict_sync h]

/-- From every state the strict decoder reads a frame in full. -/
theorem decodeRun_strict_encodePacket (rx : RxState) (p : Packet) :
    decodeRun true rx (encodePacket p).bytes = (.awaitSync, [p]) :=
  (decodeRun_strict_sync (isSync_byte0 p) rx _).trans (decodeRun_encodePacket true p)

/-- From every state the strict decoder reads a stream of frames in full (rule R80). -/
theorem decodeRun_strict_wire (rx : RxState) (ps : List Packet) :
    (decodeRun true rx (wire ps)).2 = ps := by
  cases ps with
  | nil => rfl
  | cons p ps => simp [decodeRun_append, decodeRun_strict_encodePacket]

/-- Whatever comes between frames, the strict decoder reads every frame before and after it. -/
theorem decodeRun_strict_between (ps qs : List Packet) (bs : List Byte) :
    (decodeRun true .awaitSync (wire ps ++ bs ++ wire qs)).2 =
      ps ++ (decodeRun true .awaitSync bs).2 ++ qs := by
  simp [decodeRun_append, decodeRun_strict_wire]

/-- So fewer than three bytes between frames do nothing to it. -/
theorem decodeRun_strict_short {bs : List Byte} (h : bs.length < 3) (ps qs : List Packet) :
    (decodeRun true .awaitSync (wire ps ++ bs ++ wire qs)).2 = ps ++ qs := by
  rw [decodeRun_strict_between, decodeRun_short true h, List.append_nil]

/-- Nor do fewer than three bytes before a sync byte, which starts over (rule R72). -/
theorem decodeRun_strict_restart {x : Byte} (hx : isSync x = true) (bs cs : List Byte)
    (hbs : bs.length < 3) (ps qs : List Packet) :
    (decodeRun true .awaitSync (wire ps ++ (bs ++ x :: cs) ++ wire qs)).2 =
      (decodeRun true .awaitSync (wire ps ++ x :: cs ++ wire qs)).2 := by
  rw [decodeRun_strict_between, decodeRun_strict_between, decodeRun_append true _ bs,
    decodeRun_short true hbs, List.nil_append, decodeRun_strict_sync hx]

/-! ### Streams of well-formed frames -/

/-- Well-formed frames are the frames of their Packets (rule R48). -/
theorem flatMap_bytes_eq_wire {fs : List Frame} (h : ∀ f ∈ fs, f.wf = true) :
    fs.flatMap Frame.bytes = wire (fs.map fun f => assemble f.byte0 f.byte1 f.byte2) := by
  induction fs with
  | nil => rfl
  | cons f fs ih =>
    obtain ⟨hf, hfs⟩ := List.forall_mem_cons.mp h
    rw [List.flatMap_cons, ih hfs, List.map_cons, wire_cons, encodePacket_assemble f hf]

/-- Settles O20, by the steps on sync and on continuation bytes; a stream of well-formed frames is the
frames of some Packets, which both decoders give back. -/
theorem strictDecoderRejectsAndResyncs : Obligations.StrictDecoderRejectsAndResyncs := by
  unfold Obligations.StrictDecoderRejectsAndResyncs
  simp only [← isSync_eq_true_iff, ← isSync_eq_false_iff]
  refine ⟨fun b b0 b1 => ⟨rfl, fun h => ?_, fun h => ?_⟩,
    fun _ _ _ _ h => isSync_of_decodeStep_strict_some h,
    fun _ _ _ _ h => isSync_of_decodeStep_strict_haveSecond h, fun fs h => ?_⟩
  · exact ⟨decodeStep_strict_eq_lax h _, decodeStep_strict_eq_lax h _⟩
  · exact ⟨decodeStep_strict_sync h _, decodeStep_strict_sync h _⟩
  · rw [flatMap_bytes_eq_wire h, decodeRun_wire, decodeRun_wire]

/-- Settles O24: masking is the only thing ENCODE does to the fields before the frame is laid out. -/
theorem encodedFramesRoundTrip : Obligations.EncodedFramesRoundTrip := by
  refine ⟨fun strict value channel mode _ _ _ => ⟨?_, ?_⟩, decodeRun_wire⟩
  · exact decodeRun_short strict (by simp)
  · exact decodeRun_encodePacket strict (maskFields value channel mode)

end Sys2Proof.Machine
end

section
/-! What a Packet keeps of a changed byte (rule R50), and recovery of the lax decoder (rule R76). -/

namespace Sys2Proof.Machine

/-! ### What a Packet keeps of a changed byte -/

/-- byte1 counts by its seven data bits only (rule R50). -/
theorem assemble_byte1_inj (b0 x y b2 : Byte) :
    assemble b0 x b2 = assemble b0 y b2 ↔ x.extractLsb' 0 7 = y.extractLsb' 0 7 := by
  have hread (b : Byte) : (assemble b0 b b2).value.extractLsb' 7 7 = b.extractLsb' 0 7 :=
    (BitVec.extractLsb'_append_eq_of_le (le_refl 7)).trans BitVec.extractLsb'_append_eq_right
  refine ⟨fun h => ?_, fun h => by simp only [assemble, h]⟩
  rw [← hread x, h, hread y]

/-- byte2 counts by its seven data bits only (rule R50). -/
theorem assemble_byte2_inj (b0 b1 x y : Byte) :
    assemble b0 b1 x = assemble b0 b1 y ↔ x.extractLsb' 0 7 = y.extractLsb' 0 7 := by
  have hread (b : Byte) : (assemble b0 b1 b).value.extractLsb' 0 7 = b.extractLsb' 0 7 :=
    BitVec.extractLsb'_append_eq_right
  refine ⟨fun h => ?_, fun h => by simp only [assemble, h]⟩
  rw [← hread x, h, hread y]

theorem assemble_byte1_eq_iff (p : Packet) (x : Byte) :
    assemble (encodePacket p).byte0 x (encodePacket p).byte2 = p ↔
      x.extractLsb' 0 7 = (encodePacket p).byte1.extractLsb' 0 7 := by
  rw [← assemble_byte1_inj (encodePacket p).byte0 x _ (encodePacket p).byte2,
    assemble_encodePacket]

theorem assemble_byte2_eq_iff (p : Packet) (x : Byte) :
    assemble (encodePacket p).byte0 (encodePacket p).byte1 x = p ↔
      x.extractLsb' 0 7 = (encodePacket p).byte2.extractLsb' 0 7 := by
  rw [← assemble_byte2_inj (encodePacket p).byte0 (encodePacket p).byte1 x, assemble_encodePacket]

/-- Every bit of a sync byte counts in byte0: the frame of the Packet read gives it back. -/
theorem byte0_eq_of_assemble_eq {p : Packet} {x : Byte} (hx : isSync x = true)
    (h : assemble x (encodePacket p).byte1 (encodePacket p).byte2 = p) :
    x = (encodePacket p).byte0 := by
  have hback := encodePacket_assemble ⟨x, (encodePacket p).byte1, (encodePacket p).byte2⟩
    (by simp [Frame.wf, hx])
  rw [h] at hback
  exact (congrArg Frame.byte0 hback).symm

/-! ### Recovery of the lax decoder (rule R76) -/

/-- With byte0 held, a frame's byte0 and byte1 complete a Packet and its byte2 is discarded. -/
theorem decodeRun_lax_haveFirst (b0 : Byte) (p : Packet) :
    decodeRun false (.haveFirst b0) (encodePacket p).bytes =
      (.awaitSync, [assemble b0 (encodePacket p).byte0 (encodePacket p).byte1]) := by
  simp [Frame.bytes, decodeRun_cons, decodeStep_haveFirst, decodeStep_haveSecond, decodeStep_noise]

/-- With byte0 and byte1 held, a frame's byte0 completes a Packet and the rest of it is discarded. -/
theorem decodeRun_lax_haveSecond (b0 b1 : Byte) (p : Packet) :
    decodeRun false (.haveSecond b0 b1) (encodePacket p).bytes =
      (.awaitSync, [assemble b0 b1 (encodePacket p).byte0]) := by
  simp [Frame.bytes, decodeRun_cons, decodeStep_haveSecond, decodeStep_noise]

/-- Settles O25: after the first frame the decoder is at a frame boundary, from where frames decode. -/
theorem laxDecoderRecoversFromAnyState : Obligations.LaxDecoderRecoversFromAnyState := by
  intro p ps b0 b1
  have hfirst := decodeRun_lax_haveFirst b0 p
  have hsecond := decodeRun_lax_haveSecond b0 b1 p
  refine ⟨decodeRun_wire false (p :: ps), ?_, ?_, congrArg Prod.fst hfirst,
    congrArg Prod.fst hsecond⟩
  · simp [decodeRun_append, hfirst]
  · simp [decodeRun_append, hsecond]

end Sys2Proof.Machine
end

section
/-! One byte of a frame substituted, deleted or inserted (rules R77 to R80). -/

namespace Sys2Proof.Machine

/-- A continuation byte is accepted by either decoder. -/
theorem accepted_of_isSync_eq_false {b : Byte} (h : isSync b = false) (strict : Bool) :
    (strict && isSync b) = false := by
  rw [h, Bool.and_false]

/-! ### A byte in the place of one of the frame (rule R77) -/

/-- Settles O26: in each place the frame gives the Packet of its three bytes, or, where the decoder does not
accept the byte, nothing, and the decoder is back at a frame boundary for the next frame. -/
theorem oneSubstitutedByteSpoilsOneFrame : Obligations.OneSubstitutedByteSpoilsOneFrame := by
  intro ps qs p x
  simp only [← isSync_eq_true_iff, ← isSync_eq_false_iff]
  have h0 := isSync_byte0 p
  have h1 := accepted_of_isSync_eq_false (isSync_byte1 p)
  have h2 := accepted_of_isSync_eq_false (isSync_byte2 p)
  have hone {strict : Bool} {b0 b1 b2 : Byte} (hb0 : isSync b0 = true)
      (hb1 : (strict && isSync b1) = false) (hb2 : (strict && isSync b2) = false) :=
    congrArg Prod.snd (decodeRun_between_three hb0 hb1 hb2 (List.forall_mem_nil _) ps qs)
  refine ⟨fun strict hx => ?_, fun strict hx => ⟨hone hx (h1 strict) (h2 strict), ?_⟩,
    hone h0 rfl rfl, hone h0 rfl rfl, assemble_byte1_eq_iff p x, assemble_byte2_eq_iff p x,
    fun hx => ?_, fun hx => ⟨?_, ?_⟩⟩
  · have hnoise : ∀ b ∈ [x, (encodePacket p).byte1, (encodePacket p).byte2], isSync b = false := by
      simp [hx]
    exact congrArg Prod.snd (decodeRun_between_noise strict hnoise ps qs)
  · exact fun hne heq => hne (byte0_eq_of_assemble_eq hx heq)
  · have hx' := accepted_of_isSync_eq_false hx true
    exact ⟨hone h0 hx' (h2 true), hone h0 (h1 true) hx'⟩
  · exact (decodeRun_strict_restart hx [_] [_] (by simp) ps qs).trans
      (decodeRun_strict_short (by simp) ps qs)
  · exact (decodeRun_strict_restart hx [_, _] [] (by simp) ps qs).trans
      (decodeRun_strict_short (by simp) ps qs)

/-! ### A byte missing from the frame (rule R78) -/

/-- Two bytes of a frame hold the lax decoder in HaveSecond, with nothing emitted for them. -/
theorem decodeRun_lax_wire_two {b0 : Byte} (h : isSync b0 = true) (ps : List Packet) (b1 : Byte) :
    decodeRun false .awaitSync (wire ps ++ [b0, b1]) = (.haveSecond b0 b1, ps) := by
  simp [decodeRun_append, decodeRun_cons, decodeStep_sync, decodeStep_haveFirst, h]

/-- They take the next frame's byte0 as their third, and its other two bytes are discarded. -/
theorem decodeRun_lax_wire_two_frame {b0 : Byte} (h : isSync b0 = true) (ps qs : List Packet)
    (b1 : Byte) (q : Packet) :
    decodeRun false .awaitSync (wire ps ++ [b0, b1] ++ (encodePacket q).bytes ++ wire qs) =
      (.awaitSync, ps ++ [assemble b0 b1 (encodePacket q).byte0] ++ qs) := by
  have hrest : ∀ b ∈ [(encodePacket q).byte1, (encodePacket q).byte2], isSync b = false := by simp
  rw [List.append_assoc (wire ps)]
  exact decodeRun_between_three h rfl rfl hrest ps qs

/-- Channel and mode stand in byte0 (rule R49). -/
theorem assemble_byte0_fields (p : Packet) (x y : Byte) :
    (assemble (encodePacket p).byte0 x y).channel = p.channel ∧
    (assemble (encodePacket p).byte0 x y).mode = p.mode := by
  have h := assemble_encodePacket p
  exact ⟨(congrArg Packet.channel h :), (congrArg Packet.mode h :)⟩

/-- Settles O27: without its byte0 a frame is noise; without another byte it borrows the next frame's
byte0. -/
theorem oneDeletedByteLaxDecoder : Obligations.OneDeletedByteLaxDecoder := by
  intro ps qs p q b
  have h0 := isSync_byte0 p
  obtain ⟨hch1, hmode1⟩ := assemble_byte0_fields p (encodePacket p).byte1 (encodePacket q).byte0
  obtain ⟨hch2, hmode2⟩ := assemble_byte0_fields p (encodePacket p).byte2 (encodePacket q).byte0
  have hnoise : ∀ b ∈ [(encodePacket p).byte1, (encodePacket p).byte2], isSync b = false := by simp
  exact ⟨decodeRun_between_noise false hnoise ps qs,
    decodeRun_lax_wire_two_frame h0 ps qs _ q, decodeRun_lax_wire_two_frame h0 ps qs _ q,
    ⟨hch2, hmode2, hch1, hmode1⟩, decodeRun_lax_wire_two h0 ps _, decodeRun_lax_wire_two h0 ps _,
    congrArg Prod.snd (decodeStep_haveSecond rfl _ _),
    congrArg Prod.snd (decodeStep_haveSecond rfl _ _)⟩

/-! ### A byte too many (rule R79) -/

/-- A continuation byte before a frame is discarded, by either decoder. -/
theorem decodeRun_noise_frame {x : Byte} (hx : isSync x = false) (strict : Bool) (p : Packet) :
    decodeRun strict .awaitSync ([x] ++ (encodePacket p).bytes) = (.awaitSync, [p]) := by
  rw [decodeRun_append, decodeRun_noise strict (List.forall_mem_singleton.mpr hx)]
  simp

/-- Settles O28: the first three bytes from the first sync byte on give the Packet, and the frame's last
byte is noise. -/
theorem oneInsertedByteLaxDecoder : Obligations.OneInsertedByteLaxDecoder := by
  intro ps qs p x
  simp only [← isSync_eq_true_iff, ← isSync_eq_false_iff, List.append_assoc (wire ps) [x]]
  have h0 := isSync_byte0 p
  have hlast : ∀ b ∈ [(encodePacket p).byte2], isSync b = false := by simp
  exact ⟨fun hx => decodeRun_between (decodeRun_noise_frame hx false p) ps qs,
    fun hx => decodeRun_between_three hx rfl rfl hlast ps qs,
    decodeRun_between_three h0 rfl rfl hlast ps qs,
    decodeRun_between_three h0 rfl rfl hlast ps qs,
    (assemble_byte2_eq_iff p x).mpr⟩

/-! ### The strict decoder (rule R80) -/

/-- Settles O29: every disturbance is too short to emit anything, or three accepted bytes after the
decoder's last fresh start. -/
theorem strictDecoderBoundsTheDamage : Obligations.StrictDecoderBoundsTheDamage := by
  intro ps qs p x b0 b1
  simp only [← isSync_eq_true_iff, ← isSync_eq_false_iff, List.append_assoc (wire ps) [x]]
  have h0 := isSync_byte0 p
  have h1 := accepted_of_isSync_eq_false (isSync_byte1 p) true
  have h2 := accepted_of_isSync_eq_false (isSync_byte2 p) true
  have hlast : ∀ b ∈ [(encodePacket p).byte2], isSync b = false := by simp
  have hframe := congrArg Prod.snd (decodeRun_between (decodeRun_encodePacket true p) ps qs)
  refine ⟨decodeRun_strict_wire _ ps, decodeRun_strict_wire _ ps,
    decodeRun_strict_short (by simp) ps qs, decodeRun_strict_short (by simp) ps qs,
    decodeRun_strict_short (by simp) ps qs, fun hx => ⟨?_, ?_, ?_⟩, fun hx => ?_⟩
  · exact (decodeRun_strict_restart h0 [_] [_, _] (by simp) ps qs).trans hframe
  · exact (decodeRun_strict_restart hx [_] [_, _] (by simp) ps qs).trans
      (congrArg Prod.snd (decodeRun_between_three hx h1 h2 (List.forall_mem_nil _) ps qs))
  · exact (decodeRun_strict_restart hx [_, _] [_] (by simp) ps qs).trans
      (decodeRun_strict_short (by simp) ps qs)
  · have hx' := accepted_of_isSync_eq_false hx true
    exact ⟨congrArg Prod.snd (decodeRun_between (decodeRun_noise_frame hx true p) ps qs),
      congrArg Prod.snd (decodeRun_between_three h0 hx' h1 hlast ps qs),
      congrArg Prod.snd (decodeRun_between_three h0 h1 hx' hlast ps qs)⟩

end Sys2Proof.Machine
end

section
/-! Receipt of each frame class (rules R82 to R86), TBL_READ (rule R90) and RX_BYTE (rule R67). -/

namespace Sys2Proof.Machine

/-! ### Receipt of a frame -/

theorem recordReceived_of_ne {ch : Channel} (h : ch ≠ cmdAddr) (v : U16) (s : State) :
    s.recordReceived ch v =
      { s with
        tbl := s.tbl.set ch.toNat (some v) ch.isLt
        events := s.events ++ [.chanUpdate ch v] } := by
  rw [State.recordReceived, State.setTbl, if_neg h]
  rfl

theorem receiveData_of_ne {ch : Channel} (h : ch ≠ cmdAddr) (v : U16) (s : State) :
    receiveData ch v s = .next (s.recordReceived ch v) := by
  obtain ⟨-, hnext⟩ | ⟨hcmd, -⟩ := receiveData_cases ch v s
  · exact hnext
  · exact absurd hcmd h

/-- Settles O1: the four data classes are received by one operation, which does not see the mode. -/
theorem dataClassReceiptRecordsAndNotifies : Obligations.DataClassReceiptRecordsAndNotifies := by
  intro ch v s h t
  have hdata : receiveData ch v s = .next t := by
    rw [receiveData_of_ne h, recordReceived_of_ne h]
  exact ⟨hdata, hdata, hdata, hdata⟩

/-- Settles O2: the two arms raise their event whatever the value. -/
theorem commandReceiptRaisesItsEvent : Obligations.CommandReceiptRaisesItsEvent :=
  fun _ _ => ⟨rfl, rfl⟩

/-- Settles O3: the two arms answer the state they are given. -/
theorem unknownCommandsAreIgnored : Obligations.UnknownCommandsAreIgnored :=
  fun _ _ => ⟨rfl, rfl⟩

/-! ### TBL_READ (rule R90) -/

/-- The directions as ranges of addresses (rules R17, R32, R33). -/
theorem direction_eq_ranges (c : Channel) :
    direction c =
      if c.toNat ≤ 3 then .dacOut else if c.toNat ≤ 6 then .adcIn else .command := by
  revert c
  decide

theorem direction_cmdAddr : direction cmdAddr = .command := rfl

theorem perform_tblRead (c : Channel) (s : State) :
    perform (.tblRead c) s = .next (s.giveResult (.entry (s.tblAt c) (direction c))) := rfl

/-- Settles O7, by the directions as ranges, and for the command channel by its own. -/
theorem tableReadReturnsEntryAndDirection : Obligations.TableReadReturnsEntryAndDirection := by
  refine ⟨fun c s => ?_, fun s hunknown => ?_⟩
  · rw [perform_tblRead, direction_eq_ranges]
    rfl
  · rw [perform_tblRead, hunknown, direction_cmdAddr]
    rfl

/-! ### RX_BYTE (rules R67, R74) -/

theorem opRxByte_of_linkDown {s : State} (hdown : s.linkUp = false) (b : Byte) :
    opRxByte b s = .next s := by
  simp [opRxByte, hdown]

theorem opRxByte_of_decodeStep_none {s : State} {b : Byte} {rx : RxState} (hup : s.linkUp = true)
    (hd : decodeStep s.params.strictCont s.rxState b = (rx, none)) :
    opRxByte b s = .next { s with rxState := rx } := by
  simp [opRxByte, hup, hd]

theorem opRxByte_of_decodeStep_some {s : State} {b : Byte} {rx : RxState} {p : Packet}
    (hup : s.linkUp = true) (hd : decodeStep s.params.strictCont s.rxState b = (rx, some p)) :
    opRxByte b s = dispatch p { s with rxState := rx } := by
  simp [opRxByte, hup, hd]

/-- Settles O21, one lemma for each outcome of the link test and the decoder step. -/
theorem receiveByteStepsTheDecoder : Obligations.ReceiveByteStepsTheDecoder :=
  fun b _ => ⟨fun hdown => opRxByte_of_linkDown hdown b,
    fun hup _ hd => opRxByte_of_decodeStep_none hup hd,
    fun hup _ _ hd => opRxByte_of_decodeStep_some hup hd⟩

end Sys2Proof.Machine
end

section
/-! Targets: SET_TARGET (rule R94), and MOVE_TO_TARGET as targets written one by one and then a tick (rule
R103). -/

namespace Sys2Proof.Machine

/-! ### SET_TARGET (rule R94) -/

theorem perform_setTarget {a : Dac} {s : State} (h : s.params.isAxis[a] = true) (t : U16) :
    perform (.setTarget a t) s = .next (s.writeTarget a t) := by
  simp only [perform, opSetTarget, if_pos h]

/-- Settles O37: on an axis SET_TARGET is the write of one target cell. -/
theorem setTargetOverwritesOneTarget : Obligations.SetTargetOverwritesOneTarget :=
  fun _ t _ h => perform_setTarget h t

/-! ### Operations performed one after the other -/

theorem performAll_cons (r : Request) (rs : List Request) (s : State) :
    performAll (r :: rs) s = andThen (perform r s) (performAll rs) := rfl

theorem performAll_singleton (r : Request) (s : State) : performAll [r] s = perform r s := by
  rw [performAll_cons]
  cases perform r s <;> rfl

theorem performAll_append (rs qs : List Request) (s : State) :
    performAll (rs ++ qs) s = andThen (performAll rs s) (performAll qs) := by
  induction rs generalizing s with
  | nil => rfl
  | cons r rs ih =>
    rw [List.cons_append, performAll_cons, funext ih, performAll_cons, andThen_assoc]

/-! ### The entries of a map, written one by one (rule R103) -/

/-- The targets of a list of entries, written in the list's order. -/
def State.writeEntries (s : State) (es : List (Dac × U16)) : State :=
  es.foldl (fun s e => s.writeTarget e.1 e.2) s

theorem writeEntries_cons (s : State) (e : Dac × U16) (es : List (Dac × U16)) :
    s.writeEntries (e :: es) = (s.writeTarget e.1 e.2).writeEntries es := rfl

theorem performAll_setTargets {es : List (Dac × U16)} {s : State}
    (h : ∀ e ∈ es, s.params.isAxis[e.1] = true) :
    performAll (es.map fun e => .setTarget e.1 e.2) s = .next (s.writeEntries es) := by
  induction es generalizing s with
  | nil => rfl
  | cons e es ih =>
    obtain ⟨he, hes⟩ := List.forall_mem_cons.mp h
    rw [List.map_cons, performAll_cons, perform_setTarget he, andThen_next]
    exact ih hes

/-- Writing entries touches the targets only. -/
theorem writeEntries_eq (s : State) (es : List (Dac × U16)) :
    s.writeEntries es = { s with target := (s.writeEntries es).target } := by
  induction es generalizing s with
  | nil => rfl
  | cons e es ih => exact ih (s.writeTarget e.1 e.2)

theorem writeEntries_target_of_notMem {es : List (Dac × U16)} {a : Dac}
    (h : a ∉ es.map Prod.fst) (s : State) : (s.writeEntries es).target[a] = s.target[a] := by
  induction es generalizing s with
  | nil => rfl
  | cons e es ih =>
    obtain ⟨hne, hes⟩ := List.ne_and_not_mem_of_not_mem_cons h
    rw [writeEntries_cons, ih hes, State.writeTarget_target, set_get, if_neg hne]

/-- With no address named twice, an entry is never overwritten by a later one. -/
theorem writeEntries_target_of_mem {es : List (Dac × U16)} {a : Dac} {t : U16}
    (hnodup : (es.map Prod.fst).Nodup) (h : (a, t) ∈ es) (s : State) :
    (s.writeEntries es).target[a] = t := by
  induction es generalizing s with
  | nil => exact absurd h List.not_mem_nil
  | cons e es ih =>
    obtain ⟨hfresh, hnodup'⟩ := List.nodup_cons.mp hnodup
    obtain rfl | hmem := List.mem_cons.mp h
    · rw [writeEntries_cons, writeEntries_target_of_notMem hfresh, State.writeTarget_target,
        set_get, if_pos rfl]
    · exact ih hnodup' hmem _

theorem writeEntries_eq_writeTargets {targets : Vector (Option U16) 4} {es : List (Dac × U16)}
    (hnodup : (es.map Prod.fst).Nodup)
    (hes : ∀ (a : Dac) (t : U16), (a, t) ∈ es ↔ targets[a] = some t) (s : State) :
    s.writeEntries es = s.writeTargets targets := by
  have hcell : (s.writeEntries es).target = (s.writeTargets targets).target := by
    refine cells_ext _ _ fun a => ?_
    rw [State.writeTargets_target, quad_get]
    cases ha : targets[a] with
    | none =>
      refine writeEntries_target_of_notMem (fun hmem => ?_) s
      obtain ⟨⟨b, t⟩, hbt, rfl⟩ := List.mem_map.mp hmem
      exact Option.some_ne_none t (((hes b t).mp hbt).symm.trans ha)
    | some t => exact writeEntries_target_of_mem hnodup ((hes a t).mpr ha) s
  rw [writeEntries_eq, hcell]
  rfl

theorem domainOf_get (targets : Vector (Option U16) 4) (a : Dac) :
    (domainOf targets)[a] = (targets[a]).isSome := quad_get _ a

/-- Settles O43: the entries leave the targets MOVE_TO_TARGET writes, whatever their order, and both end
in the same tick. -/
theorem moveToTargetIsTargetsThenTick : Obligations.MoveToTargetIsTargetsThenTick := by
  intro targets es s hdomain hnodup hes
  have hentries : ∀ e ∈ es, s.params.isAxis[e.1] = true := by
    intro e he
    refine (axesOnly_iff _ _).mp hdomain e.1 ?_
    rw [domainOf_get, (hes e.1 e.2).mp he, Option.isSome_some]
  rw [performAll_append, performAll_setTargets hentries, andThen_next, performAll_singleton,
    writeEntries_eq_writeTargets hnodup hes]
  simp only [perform, opMoveToTarget, opMoveTick, State.writeTargets_params, hdomain]

end Sys2Proof.Machine
end

section
/-! The Packets of a tick (rules R97, R106) and the pseudocode of MOVE_TICK (rule R98). -/

namespace Sys2Proof.Machine

/-! ### The Packets of a tick (rule R97) -/

/-- The Packet that carries a value to a DAC address. -/
def dacPacket (m : Mode) (a : Dac) (v : U16) : Packet :=
  { channel := dacChannel a, mode := m, value := v }

theorem groupModes_concat (as : List Dac) (b : Dac) :
    groupModes (as ++ [b]) = as.map (·, 0#2) ++ [(b, 2#2)] := by
  induction as with
  | nil => rfl
  | cons a as ih =>
    have hcons : groupModes (a :: (as ++ [b])) = (a, 0#2) :: groupModes (as ++ [b]) := by
      cases as <;> rfl
    rw [List.cons_append, hcons, ih]
    rfl

/-- Every moved axis but the last has mode 0; the last has the mode of the last index. -/
theorem tickModes_concat (as : List Dac) (b : Dac) :
    tickModes (as ++ [b]) = as.map (·, 0#2) ++ [(b, modeOf (as.length + 1) as.length)] := by
  cases as with
  | nil => rfl
  | cons a as =>
    have hgroup : tickModes (a :: as ++ [b]) = groupModes (a :: as ++ [b]) := by cases as <;> rfl
    rw [hgroup, groupModes_concat]
    simp [modeOf]

@[simp] theorem tickPackets_nil (s : State) : s.tickPackets [] = [] := rfl

/-- The Packets of a tick that moved the axes `as` and, last, `b`. -/
theorem tickPackets_concat (s : State) (as : List Dac) (b : Dac) :
    s.tickPackets (as ++ [b]) =
      (as.map fun a => dacPacket 0#2 a s.current[a]) ++
        [dacPacket (modeOf (as.length + 1) as.length) b s.current[b]] := by
  simp only [State.tickPackets, tickModes_concat, List.map_append, List.map_map]
  rfl

/-- A moved axis each, in their order. -/
theorem tickPackets_axes (s : State) (moved : List Dac) :
    (s.tickPackets moved).map (·.channel) = moved.map dacChannel ∧
    (s.tickPackets moved).map (·.value) = moved.map fun a => s.current[a] := by
  obtain rfl | ⟨as, b, rfl⟩ := List.eq_nil_or_concat' moved
  · exact ⟨rfl, rfl⟩
  · rw [tickPackets_concat]
    simp [dacPacket, Function.comp_def]

theorem length_tickPackets (s : State) (moved : List Dac) :
    (s.tickPackets moved).length = moved.length := by
  simpa using congrArg List.length (tickPackets_axes s moved).1

/-- The modes of N frames: mode 1 for one, else N - 1 times mode 0 and then mode 2. -/
theorem tickPackets_modes (s : State) (moved : List Dac) :
    ((s.tickPackets moved).length = 1 → (s.tickPackets moved).map (·.mode) = [1#2]) ∧
    (2 ≤ (s.tickPackets moved).length →
      (s.tickPackets moved).map (·.mode) =
        List.replicate ((s.tickPackets moved).length - 1) 0#2 ++ [2#2]) := by
  obtain rfl | ⟨as, b, rfl⟩ := List.eq_nil_or_concat' moved
  · simp
  · rw [tickPackets_concat]
    cases as with
    | nil => simp [dacPacket, modeOf]
    | cons a as => simp [dacPacket, modeOf, Function.comp_def, List.map_const', List.replicate_succ]

/-! ### MOVE_TICK -/

theorem perform_moveTick {axes : Vector Bool 4} {s : State} (h : axesOnly s.params axes = true) :
    perform (.moveTick axes) s = .next (tick axes s) := by
  simp only [perform, opMoveTick, if_pos h]

/-- The Packets of a tick over the axes of the set. -/
def State.packetsOfTick (s : State) (axes : Vector Bool 4) : List Packet :=
  (s.slewAxes axes).tickPackets (s.movedAxes axes)

theorem length_packetsOfTick (s : State) (axes : Vector Bool 4) :
    (s.packetsOfTick axes).length = (s.movedAxes axes).length := length_tickPackets _ _

theorem tick_txStream {s : State} (hup : s.linkUp = true) (axes : Vector Bool 4) :
    (tick axes s).txStream = s.txStream ++ wire (s.packetsOfTick axes) :=
  (tick_outputs_up axes s hup).1

/-- Settles O41, by the Packets of the tick: their channels, values and modes. -/
theorem tickFramesAreAtomic : Obligations.TickFramesAreAtomic := by
  intro axes s hup haxes
  obtain ⟨hcurrent, -⟩ := tick_frame axes s
  obtain ⟨hchannel, hvalue⟩ := tickPackets_axes (s.slewAxes axes) (s.movedAxes axes)
  obtain ⟨hone, hmany⟩ := tickPackets_modes (s.slewAxes axes) (s.movedAxes axes)
  exact ⟨tick axes s, s.packetsOfTick axes, perform_moveTick haxes, tick_txStream hup axes,
    length_packetsOfTick s axes, hchannel, hcurrent ▸ hvalue, hone, hmany⟩

/-! ### The first loop of the pseudocode (rule R98) -/

/-- The axes of a list each make one slew step. -/
def State.slewEach (s : State) (as : List Dac) : State :=
  { s with
    current := quad fun a =>
      if a ∈ as then slew s.params.stepSize s.current[a] s.target[a] else s.current[a] }

theorem slewEach_current (s : State) (as : List Dac) (a : Dac) :
    (s.slewEach as).current[a] =
      if a ∈ as then slew s.params.stepSize s.current[a] s.target[a] else s.current[a] :=
  quad_get _ a

theorem slewEach_nil (s : State) : s.slewEach [] = s := by
  have hcurrent : (s.slewEach []).current = s.current :=
    cells_ext _ _ fun a => by rw [slewEach_current, if_neg List.not_mem_nil]
  exact congrArg (fun cur => { s with current := cur }) hcurrent

theorem slewEach_concat (s : State) (as : List Dac) (b : Dac) :
    s.slewEach (as ++ [b]) =
      { s.slewEach as with
        current := (s.slewEach as).current.set b.val
          (slew s.params.stepSize s.current[b] s.target[b]) b.isLt } := by
  have hcurrent : (s.slewEach (as ++ [b])).current =
      (s.slewEach as).current.set b.val (slew s.params.stepSize s.current[b] s.target[b]) b.isLt := by
    refine cells_ext _ _ fun a => ?_
    rw [set_get, slewEach_current, slewEach_current]
    by_cases hab : a = b <;> simp [hab]
  exact congrArg (fun cur => { s with current := cur }) hcurrent

theorem slewAxes_eq_slewEach (s : State) (axes : Vector Bool 4) :
    s.slewAxes axes = s.slewEach (s.movedAxes axes) := by
  have hcurrent : (s.slewAxes axes).current = (s.slewEach (s.movedAxes axes)).current :=
    cells_ext _ _ fun a => by rw [slewAxes_current, slewEach_current]
  exact congrArg (fun cur => { s with current := cur }) hcurrent

/-- Once through the loop for an axis not stepped before. -/
theorem tickLoopBody_slewEach (axes : Vector Bool 4) (s : State) {as : List Dac}
    (ms : List (Dac × U16)) {b : Dac} (hb : b ∉ as) :
    tickLoopBody axes (s.slewEach as, ms) b =
      if axes[b] && s.moving b then
        (s.slewEach (as ++ [b]), ms ++ [(b, slew s.params.stepSize s.current[b] s.target[b])])
      else (s.slewEach as, ms) := by
  have hcurrent : (s.slewEach as).current[b] = s.current[b] := by
    rw [slewEach_current, if_neg hb]
  have htarget : (s.slewEach as).target = s.target := rfl
  have hparams : (s.slewEach as).params = s.params := rfl
  simp only [tickLoopBody, hcurrent, htarget, hparams, slewEach_concat]
  cases axes[b] <;> by_cases hmoving : s.current[b] = s.target[b] <;>
    simp [State.moving, hmoving]

/-- The axes of a list that are in the set and off target. -/
def State.movedOf (s : State) (axes : Vector Bool 4) (l : List Dac) : List Dac :=
  l.filter fun a => axes[a] && s.moving a

theorem movedAxes_eq_movedOf (s : State) (axes : Vector Bool 4) :
    s.movedAxes axes = s.movedOf axes (axesOf s.params) := rfl

theorem movedOf_concat (s : State) (axes : Vector Bool 4) (l : List Dac) (b : Dac) :
    s.movedOf axes (l ++ [b]) =
      if axes[b] && s.moving b then s.movedOf axes l ++ [b] else s.movedOf axes l := by
  rw [State.movedOf, List.filter_append, List.filter_singleton]
  cases axes[b] && s.moving b with
  | true => rfl
  | false => exact List.append_nil _

/-- The loop over distinct axes steps those that are off target and lists them with their new values. -/
theorem foldl_tickLoopBody (axes : Vector Bool 4) (s : State) {l : List Dac} (h : l.Nodup) :
    l.foldl (tickLoopBody axes) (s, []) =
      (s.slewEach (s.movedOf axes l),
        (s.movedOf axes l).map fun a => (a, slew s.params.stepSize s.current[a] s.target[a])) := by
  induction l using List.reverseRecOn with
  | nil => rw [List.foldl_nil, State.movedOf, List.filter_nil, slewEach_nil, List.map_nil]
  | append_singleton l b ih =>
    obtain ⟨hl, -, hdisjoint⟩ := List.nodup_append.mp h
    have hfresh : b ∉ s.movedOf axes l := fun hmem =>
      hdisjoint b (List.mem_of_mem_filter hmem) b (List.mem_singleton_self b) rfl
    rw [List.foldl_concat, ih hl, tickLoopBody_slewEach axes s _ hfresh, movedOf_concat]
    split
    · rw [List.map_append, List.map_singleton]
    · rfl

/-! ### The second loop of the pseudocode (rule R98) -/

theorem sendLoopBody_eq_sendFrame (s : State) (a : Dac) (v : U16) (m : Mode) :
    sendLoopBody s a v m = s.sendFrame (dacPacket m a v) := by
  simp only [State.sendFrame, dacPacket, State.setTbl, dacChannel_ne_cmdAddr, if_false]
  rfl

/-- The loop from index `i` on sends the last frame with the mode of its index and those before with
mode 0. -/
theorem sendLoop_concat (f : Dac → U16) (as : List Dac) (b : Dac) (i : Nat) (s : State) :
    sendLoop (i + as.length + 1) i ((as ++ [b]).map fun a => (a, f a)) s =
      s.sendFrames ((as.map fun a => dacPacket 0#2 a (f a)) ++
        [dacPacket (modeOf (i + as.length + 1) (i + as.length)) b (f b)]) := by
  induction as generalizing i s with
  | nil => exact sendLoopBody_eq_sendFrame s b (f b) _
  | cons a as ih =>
    have hmode : modeOf (i + (as.length + 1) + 1) i = 0#2 := by
      rw [modeOf, if_neg (by omega), if_pos (by omega)]
    have hindex : i + (as.length + 1) = i + 1 + as.length := by omega
    simp only [List.cons_append, List.map_cons, List.length_cons, sendLoop, hmode,
      sendLoopBody_eq_sendFrame, sendFrames_cons]
    rw [hindex, ih]

/-- The loop sends the Packets of the tick. -/
theorem sendLoop_eq_sendFrames (s : State) (moved : List Dac) :
    sendLoop moved.length 0 (moved.map fun a => (a, s.current[a])) s =
      s.sendFrames (s.tickPackets moved) := by
  obtain rfl | ⟨as, b, rfl⟩ := List.eq_nil_or_concat' moved
  · rfl
  · have hloop := sendLoop_concat (fun a => s.current[a]) as b 0 s
    rw [Nat.zero_add] at hloop
    rw [tickPackets_concat, List.length_append, List.length_singleton, hloop]

/-! ### The whole of the pseudocode -/

/-- The two loops leave the state of a tick's definition, and its result with them. -/
theorem tick_eq_tickByRule (axes : Vector Bool 4) (s : State) :
    tick axes s = tickByRule axes s := by
  have hloop : (axesOf s.params).foldl (tickLoopBody axes) (s, []) =
      (s.slewAxes axes,
        (s.movedAxes axes).map fun a => (a, (s.slewAxes axes).current[a])) := by
    rw [foldl_tickLoopBody axes s (axesOf_nodup s.params), slewAxes_eq_slewEach,
      movedAxes_eq_movedOf]
    refine Prod.ext rfl (List.map_congr_left fun a ha => ?_)
    rw [slewEach_current, if_pos ha]
  obtain ⟨-, -, -, hcurrent, htarget, -⟩ :=
    sendFrames_frame ((s.slewAxes axes).tickPackets (s.movedAxes axes)) (s.slewAxes axes)
  simp only [tick, tickByRule, hloop, List.length_map, sendLoop_eq_sendFrames]
  split
  · simp only [State.giveResult, State.anyMoving, State.moving, hcurrent, htarget]
    rfl
  · rfl

/-- Settles O40: the tick of the definition is the one of the two loops, in every state. -/
theorem moveTickIsThePseudocode : Obligations.MoveTickIsThePseudocode :=
  fun axes s h => (perform_moveTick h).trans (congrArg Host.Outcome.next (tick_eq_tickByRule axes s))

end Sys2Proof.Machine
end

section
/-! A tick's frames at the DIM (rules R110 to R112, R118): whatever bytes arrive, frames to DAC addresses
act in the order in which the DIM's decoder completes them; loads change no output; the last frame of a
tick commits them. -/

namespace Sys2Proof.Machine

/-! ### Frames to DAC addresses at the DIM -/

/-- The far end with another decoder state. -/
def FarEnd.withRx (fe : FarEnd) (rx : RxState) : FarEnd := { fe with rx := rx }

/-- The DIM acts on Packets one after the other. -/
def FarEnd.actedOn (fe : FarEnd) (ps : List Packet) : FarEnd := ps.foldl (fun fe p => fePacket p fe) fe

/-- A Packet to a DAC address. -/
def toDac (p : Packet) : Prop := ∃ a, p.channel = dacChannel a

theorem fePacket_load (a : Dac) (v : U16) (fe : FarEnd) :
    fePacket (dacPacket 0#2 a v) fe = fe.setReg a v := by
  simp [fePacket, dacPacket, classify, dacChannel_ne_cmdAddr, feAct, feLoad]

theorem fePacket_loadUpd (a : Dac) (v : U16) (fe : FarEnd) :
    fePacket (dacPacket 1#2 a v) fe =
      { fe.setReg a v with out := fe.out.set a.val (some v) a.isLt } := by
  simp [fePacket, dacPacket, classify, dacChannel_ne_cmdAddr, feAct, feLoadUpd]

theorem fePacket_loadAll (a : Dac) (v : U16) (fe : FarEnd) :
    fePacket (dacPacket 2#2 a v) fe = { fe.setReg a v with out := (fe.setReg a v).reg } := by
  simp [fePacket, dacPacket, classify, dacChannel_ne_cmdAddr, feAct, feLoadAll]

theorem fePacket_rsvd3 (a : Dac) (v : U16) (fe : FarEnd) :
    fePacket (dacPacket 3#2 a v) fe = fe.drawLatch := by
  simp [fePacket, dacPacket, classify, dacChannel_ne_cmdAddr, feAct, feRsvd3]

/-- What a frame to a DAC address does neither reads nor writes the DIM's decoder. -/
theorem fePacket_withRx {p : Packet} (h : toDac p) (fe : FarEnd) (rx : RxState) :
    fePacket p (fe.withRx rx) = (fePacket p fe).withRx rx := by
  obtain ⟨c, m, v⟩ := p
  obtain ⟨a, rfl : c = dacChannel a⟩ := h
  have hm : m = 0#2 ∨ m = 1#2 ∨ m = 2#2 ∨ m = 3#2 := by revert m; decide
  change fePacket (dacPacket m a v) _ = (fePacket (dacPacket m a v) fe).withRx rx
  obtain rfl | rfl | rfl | rfl := hm
  · simp only [fePacket_load]; rfl
  · simp only [fePacket_loadUpd]; rfl
  · simp only [fePacket_loadAll]; rfl
  · simp only [fePacket_rsvd3]; rfl

theorem actedOn_withRx {ps : List Packet} (h : ∀ p ∈ ps, toDac p) (fe : FarEnd) (rx : RxState) :
    (fe.withRx rx).actedOn ps = (fe.actedOn ps).withRx rx := by
  induction ps generalizing fe with
  | nil => rfl
  | cons p ps ih =>
    obtain ⟨hp, hps⟩ := List.forall_mem_cons.mp h
    calc (fe.withRx rx).actedOn (p :: ps)
        = (fePacket p (fe.withRx rx)).actedOn ps := rfl
      _ = ((fePacket p fe).withRx rx).actedOn ps := by rw [fePacket_withRx hp]
      _ = (fe.actedOn (p :: ps)).withRx rx := ih hps (fePacket p fe)

/-- Bytes that complete only frames to DAC addresses do what these frames do, one after the other, and move
the decoder. -/
theorem feBytes_of_toDac (strict : Bool) {bs : List Byte} {fe : FarEnd}
    (h : ∀ p ∈ (decodeRun strict fe.rx bs).2, toDac p) :
    feBytes strict fe bs =
      (fe.actedOn (decodeRun strict fe.rx bs).2).withRx (decodeRun strict fe.rx bs).1 := by
  induction bs generalizing fe with
  | nil => rfl
  | cons b bs ih =>
    rw [decodeRun_cons] at h ⊢
    generalize hrx : (decodeStep strict fe.rx b).1 = rx at h ⊢
    have hrest (fe' : FarEnd) (hps : ∀ p ∈ (decodeRun strict rx bs).2, toDac p) :
        feBytes strict (fe'.withRx rx) bs =
          (fe'.actedOn (decodeRun strict rx bs).2).withRx (decodeRun strict rx bs).1 :=
      (ih (fe := fe'.withRx rx) hps).trans
        (congrArg (fun x => x.withRx (decodeRun strict rx bs).1) (actedOn_withRx hps fe' rx))
    obtain ⟨hnone, hb⟩ | ⟨p, hsome, hb⟩ := feByte_cases strict fe b
    · have hfe : feByte strict fe b = fe.withRx rx := by rw [hb, hrx]; rfl
      rw [hnone, Option.toList_none, List.nil_append] at h ⊢
      rw [feBytes_cons, hfe, hrest fe h]
    · rw [hsome, Option.toList_some, List.singleton_append] at h ⊢
      obtain ⟨hp, hps⟩ := List.forall_mem_cons.mp h
      have hfe : feByte strict fe b = (fePacket p fe).withRx rx := by
        rw [hb, hrx]
        exact fePacket_withRx hp fe rx
      rw [feBytes_cons, hfe, hrest _ hps]
      rfl

/-! ### Loads (rule R110) -/

/-- Loads leave every output as it is. -/
theorem actedOn_out_of_loads {ps : List Packet} (h : ∀ p ∈ ps, toDac p ∧ p.mode = 0#2)
    (fe : FarEnd) : (fe.actedOn ps).out = fe.out := by
  induction ps generalizing fe with
  | nil => rfl
  | cons p ps ih =>
    obtain ⟨⟨⟨a, ha⟩, hm⟩, hps⟩ := List.forall_mem_cons.mp h
    have hp : p = dacPacket 0#2 a p.value := by
      obtain ⟨c, m, v⟩ := p
      cases ha
      cases hm
      rfl
    calc (fe.actedOn (p :: ps)).out = ((fePacket p fe).actedOn ps).out := rfl
      _ = (fePacket p fe).out := ih hps _
      _ = fe.out := by rw [hp, fePacket_load, FarEnd.setReg_out]

/-- The registers of the axes loaded take their new values, all others stay. -/
theorem actedOn_loads_reg (f : Dac → U16) (as : List Dac) (fe : FarEnd) (a : Dac) :
    (fe.actedOn (as.map fun a => dacPacket 0#2 a (f a))).reg[a] =
      if a ∈ as then some (f a) else fe.reg[a] := by
  induction as generalizing fe with
  | nil => rfl
  | cons b as ih =>
    have hfirst : fe.actedOn ((b :: as).map fun a => dacPacket 0#2 a (f a)) =
        (fe.setReg b (f b)).actedOn (as.map fun a => dacPacket 0#2 a (f a)) :=
      congrArg (FarEnd.actedOn · _) (fePacket_load b (f b) fe)
    rw [hfirst, ih, FarEnd.setReg_reg, set_get]
    by_cases hab : a = b <;> simp [hab]

theorem actedOn_append (fe : FarEnd) (ps qs : List Packet) :
    fe.actedOn (ps ++ qs) = (fe.actedOn ps).actedOn qs := List.foldl_append

/-! ### A tick's Packets at the DIM (rule R118) -/

theorem toDac_of_mem_tickPackets {s : State} {moved : List Dac} {p : Packet}
    (h : p ∈ s.tickPackets moved) : toDac p := by
  obtain ⟨hchannels, -⟩ := tickPackets_axes s moved
  have hchannel : p.channel ∈ moved.map dacChannel := hchannels ▸ List.mem_map_of_mem h
  obtain ⟨a, -, ha⟩ := List.mem_map.mp hchannel
  exact ⟨a, ha.symm⟩

/-- Every Packet of a tick but the last is a load. -/
theorem mode_of_mem_take_tickPackets {s : State} {moved : List Dac} {q : Nat} {p : Packet}
    (hq : q < moved.length) (h : p ∈ (s.tickPackets moved).take q) : p.mode = 0#2 := by
  obtain rfl | ⟨as, b, rfl⟩ := List.eq_nil_or_concat' moved
  · exact absurd hq (Nat.not_lt_zero q)
  · rw [List.length_append, List.length_singleton] at hq
    rw [tickPackets_concat, List.take_append_of_le_length (by rw [List.length_map]; omega)] at h
    obtain ⟨a, -, rfl⟩ := List.mem_map.mp (List.mem_of_mem_take h)
    rfl

/-- All the Packets of a tick: each moved axis gets its new value; the others take their registers if
several axes moved, and stay if one did. -/
theorem actedOn_tickPackets_out (s : State) {moved : List Dac} (hmoved : moved ≠ []) (fe : FarEnd)
    (a : Dac) :
    (fe.actedOn (s.tickPackets moved)).out[a] =
      if a ∈ moved then some s.current[a]
      else if moved.length = 1 then fe.out[a] else fe.reg[a] := by
  obtain rfl | ⟨as, b, rfl⟩ := List.eq_nil_or_concat' moved
  · exact absurd rfl hmoved
  · rw [tickPackets_concat, actedOn_append]
    cases as with
    | nil =>
      change (fePacket (dacPacket 1#2 b s.current[b]) fe).out[a] = _
      rw [fePacket_loadUpd, set_get]
      by_cases hab : a = b <;> simp [hab]
    | cons c cs =>
      have hmode : modeOf ((c :: cs).length + 1) (c :: cs).length = 2#2 := by simp [modeOf]
      rw [hmode]
      change (fePacket (dacPacket 2#2 b s.current[b]) (fe.actedOn _)).out[a] = _
      rw [fePacket_loadAll, FarEnd.setReg_reg, set_get,
        actedOn_loads_reg (fun a => s.current[a])]
      by_cases hab : a = b <;> simp [hab]

/-! ### The bytes of a tick on the line -/

theorem length_wire (ps : List Packet) : (wire ps).length = 3 * ps.length := by
  induction ps with
  | nil => rfl
  | cons p ps ih =>
    rw [wire_cons, List.length_append, ih, List.length_cons]
    simp only [Frame.bytes, List.length_cons, List.length_nil]
    omega

/-- Cut anywhere, a stream of frames completes the frames that lie before the cut in full. -/
theorem decodeRun_take_wire (strict : Bool) (ps : List Packet) (k : Nat) :
    (decodeRun strict .awaitSync ((wire ps).take k)).2 = ps.take (k / 3) := by
  have hsplit : wire ps = wire (ps.take (k / 3)) ++ wire (ps.drop (k / 3)) := by
    rw [← wire_append, List.take_append_drop]
  have hbefore : (wire (ps.take (k / 3))).length ≤ k := by
    rw [length_wire, List.length_take]
    omega
  have hafter : ((wire (ps.drop (k / 3))).take (k - (wire (ps.take (k / 3))).length)).length < 3 := by
    rw [List.length_take, length_wire, length_wire, List.length_take, List.length_drop]
    omega
  rw [hsplit, List.take_append, List.take_of_length_le hbefore, decodeRun_append, decodeRun_wire,
    decodeRun_short strict hafter, List.append_nil]

/-- What the line passes reaches the DIM and moves the line, which the DIM does not touch. -/
theorem opLineToDim_farEnd {s : State} (h : holdsSync s.farEnd.rx = true) (n : Nat) :
    (opLineToDim n s).farEnd =
      { feBytes s.params.dimStrict s.farEnd (s.inFlight n) with
        taken := s.farEnd.taken + (s.inFlight n).length } := by
  obtain ⟨-, hstay⟩ := feBytes_keeps s.params.dimStrict s.farEnd (s.inFlight n) h
  simp only [opLineToDim, hstay]

/-- With the link up, the DIM at a frame boundary and every earlier byte passed, `k` bytes of a tick make
the DIM act on the frames that lie in them in full, move its decoder, and move the line. -/
theorem farEnd_opLineToDim_tick {s : State} (hup : s.linkUp = true)
    (hrx : s.farEnd.rx = .awaitSync) (htaken : s.farEnd.taken = s.txStream.length)
    (axes : Vector Bool 4) (k : Nat) :
    (opLineToDim k (tick axes s)).farEnd =
      { (s.farEnd.actedOn ((s.packetsOfTick axes).take (k / 3))).withRx
          (decodeRun s.params.dimStrict .awaitSync ((wire (s.packetsOfTick axes)).take k)).1 with
        taken := s.txStream.length + ((wire (s.packetsOfTick axes)).take k).length } := by
  obtain ⟨-, -, -, -, hparams, hfar, -⟩ := tick_frame axes s
  have hflight : (tick axes s).inFlight k = (wire (s.packetsOfTick axes)).take k := by
    rw [State.inFlight, hfar, htaken, tick_txStream hup, List.drop_left]
  have hemitted : (decodeRun s.params.dimStrict s.farEnd.rx
      ((wire (s.packetsOfTick axes)).take k)).2 = (s.packetsOfTick axes).take (k / 3) := by
    rw [hrx, decodeRun_take_wire]
  have hdac : ∀ p ∈ (s.packetsOfTick axes).take (k / 3), toDac p := fun p hp =>
    toDac_of_mem_tickPackets (List.mem_of_mem_take hp)
  have hsync : holdsSync (tick axes s).farEnd.rx = true := by
    rw [hfar, hrx]
    rfl
  rw [opLineToDim_farEnd hsync, hflight, hparams, hfar, htaken,
    feBytes_of_toDac _ (hemitted ▸ hdac), hemitted, hrx]

/-- Settles O53: before the last byte the frames in full are loads; with it they are all of the tick's. -/
theorem movedOutputsUpdateOnTheSameEdge : Obligations.MovedOutputsUpdateOnTheSameEdge := by
  intro axes s hup haxes hrx htaken hmoved n
  have hline := farEnd_opLineToDim_tick hup hrx htaken axes
  have hlength := length_packetsOfTick s axes
  have hbytes : (wire (s.packetsOfTick axes)).take n = wire (s.packetsOfTick axes) :=
    List.take_of_length_le (by rw [length_wire, hlength])
  have hframes : (s.packetsOfTick axes).take (n / 3) = s.packetsOfTick axes :=
    List.take_of_length_le (by omega)
  have hout (a : Dac) : (opLineToDim n (tick axes s)).farEnd.out[a] =
      if a ∈ s.movedAxes axes then some (tick axes s).current[a]
      else if (s.movedAxes axes).length = 1 then s.farEnd.out[a] else s.farEnd.reg[a] := by
    obtain ⟨hcurrent, -⟩ := tick_frame axes s
    rw [hline n, hframes, hcurrent]
    exact actedOn_tickPackets_out (s.slewAxes axes) hmoved s.farEnd a
  refine ⟨tick axes s, perform_moveTick haxes, fun k hk => ?_, fun a ha => ?_, fun a ha => ?_, ?_, ?_⟩
  · rw [hline k]
    refine actedOn_out_of_loads (fun p hp => ?_) s.farEnd
    exact ⟨toDac_of_mem_tickPackets (List.mem_of_mem_take hp),
      mode_of_mem_take_tickPackets (by omega) hp⟩
  · rw [hout, if_pos ha]
  · rw [hout, if_neg ha]
  · rw [hline n, hbytes, tick_txStream hup, List.length_append]
  · rw [hline n, hbytes, decodeRun_wire]
    rfl

end Sys2Proof.Machine
end

section
/-! LOAD and LOADUPD at the DIM (rules R110, R111), from what the DIM does with their Packets. -/

namespace Sys2Proof.Machine

/-- The DIM acts on the Packet of a well-formed instruction as on the instruction (rule R109). -/
theorem fePacket_packet {i : Instr} (h : i.wf = true) (fe : FarEnd) :
    fePacket i.packet fe = feAct i fe := by
  rw [fePacket, classify_packet i h]

/-- LOAD at a DAC address (rule R110). -/
theorem feAct_load (a : Dac) (v : U16) (fe : FarEnd) :
    feAct (.load (dacChannel a) v) fe = fe.setReg a v := by
  have hwf : (Instr.load (dacChannel a) v).wf = true := bne_iff_ne.mpr (dacChannel_ne_cmdAddr a)
  rw [← fePacket_packet hwf]
  exact fePacket_load a v fe

/-- LOADUPD at a DAC address (rule R111). -/
theorem feAct_loadUpd (a : Dac) (v : U16) (fe : FarEnd) :
    feAct (.loadUpd (dacChannel a) v) fe =
      { fe.setReg a v with out := fe.out.set a.val (some v) a.isLt } := by
  have hwf : (Instr.loadUpd (dacChannel a) v).wf = true := bne_iff_ne.mpr (dacChannel_ne_cmdAddr a)
  rw [← fePacket_packet hwf]
  exact fePacket_loadUpd a v fe

/-- Settles O47: the register written is that of `FarEnd.setReg`. -/
theorem farEndLatchLoadsAndUpdates : Obligations.FarEndLatchLoadsAndUpdates :=
  fun a v fe => ⟨feAct_load a v fe, feAct_loadUpd a v fe⟩

end Sys2Proof.Machine
end

section
/-! Every operation of the stated types and every frame completes (rule R119). -/

namespace Sys2Proof.Machine

theorem perform_moveToTarget {targets : Vector (Option U16) 4} {s : State}
    (h : axesOnly s.params (domainOf targets) = true) :
    perform (.moveToTarget targets) s =
      .next (tick (domainOf targets) (s.writeTargets targets)) := by
  simp only [perform, opMoveToTarget, if_pos h]

/-- Three operations test their axes, three run DISPATCH on the Packets of the bytes received, and the
others compute a state outright. -/
theorem exists_perform_of_typed {r : Request} {s : State} (h : r.typed s.params = true) :
    ∃ t, perform r s = .next t := by
  cases r with
  | setTarget a v => exact ⟨_, perform_setTarget h v⟩
  | moveTick axes => exact ⟨_, perform_moveTick h⟩
  | moveToTarget targets => exact ⟨_, perform_moveToTarget h⟩
  | rxByte b =>
    obtain ⟨ps, rx, hnext⟩ := opRxByte_receives b s
    exact ⟨_, hnext⟩
  | drain bs =>
    obtain ⟨ps, rx, hnext⟩ := opDrain_receives bs s
    exact ⟨_, hnext⟩
  | lineToUnit n =>
    obtain ⟨ps, rx, fe, hnext⟩ := opLineToUnit_receives n s
    exact ⟨_, hnext⟩
  | encode | send | opInit | opSave | tblRead | linkSet | reset | lineToDim | lineLosesToDim
  | lineNoiseToDim | lineLosesToUnit | dimPowerUp | dimReading | dimSends => exact ⟨_, rfl⟩

/-- A well-formed instruction is what DISPATCH selects for its Packet (rule R81). -/
theorem exec_of_wf {i : Instr} (h : i.wf = true) (s : State) :
    exec i s = .next (s.received i.packet) := by
  rw [← dispatch_next, dispatch, classify_packet i h]

/-- The operation a step serves reads the parameters of the state before it. -/
theorem exists_step_of_typed {s : State} (h : ∀ r ∈ s.requests, r.typed s.params = true) :
    ∃ t, step s = .next t := by
  obtain ⟨-, hidle⟩ | ⟨r, rest, hcons, hserve⟩ := step_cases s
  · exact ⟨s, hidle⟩
  · have htyped : r.typed s.params = true := h r (hcons ▸ List.mem_cons_self)
    rw [hserve]
    exact exists_perform_of_typed htyped

/-- Settles O58: each operation by its own outcome, an instruction as the DISPATCH of its Packet, a step
as the operation it serves; and there is no fault to answer. -/
theorem everyOperationCompletes : Obligations.EveryOperationCompletes :=
  ⟨fun _ _ h => exists_perform_of_typed h, fun _ s h => ⟨_, exec_of_wf h s⟩,
    fun _ h => exists_step_of_typed h, fun _ r => nomatch r⟩

end Sys2Proof.Machine
end

section
/-! Receipt as DISPATCH of the decoded Packets in order (rules R67, R73, R81), and the step that serves the
bytes of one frame (rules R41, R81). -/

namespace Sys2Proof.Machine

/-! ### DISPATCH selects (rule R81) -/

/-- Settles O4: the four data classes are received by one operation, which refuses channel 7. -/
theorem dataClassWithCommandChannelIsRefused : Obligations.DataClassWithCommandChannelIsRefused := by
  intro v s
  have hrefused : receiveData cmdAddr v s = .refused .dataClassOnCommandChannel := rfl
  exact ⟨hrefused, hrefused, hrefused, hrefused⟩

/-- Settles O6: the two operations raise their event, without a look at the link. -/
theorem directCommandsRaiseTheirEvent : Obligations.DirectCommandsRaiseTheirEvent :=
  fun _ => ⟨rfl, rfl⟩

theorem received_eq_by_channel_and_mode (s : State) (p : Packet) :
    s.received p =
      if p.channel ≠ cmdAddr then
        { s with
          tbl := s.tbl.set p.channel.toNat (some p.value) p.channel.isLt
          events := s.events ++ [.chanUpdate p.channel p.value] }
      else if p.mode = 0#2 then { s with events := s.events ++ [.cmdInit] }
      else if p.mode = 1#2 then { s with events := s.events ++ [.cmdSave] }
      else s := by
  rw [State.received]
  by_cases hc : p.channel = cmdAddr
  · rw [if_pos hc, if_neg (not_not_intro hc)]
    rfl
  · rw [if_neg hc, if_pos hc, recordReceived_of_ne hc]

theorem dispatchAll_singleton (p : Packet) (s : State) : dispatchAll [p] s = dispatch p s := by
  rw [dispatchAll_next, dispatch_next]
  rfl

/-- The decoder can be moved before or after the Packets are received. -/
theorem dispatchAll_setRx (ps : List Packet) (s : State) (rx : RxState) :
    dispatchAll ps { s with rxState := rx } =
      .next ((s.receivedAll ps).withLine rx s.linkUp s.farEnd) :=
  (dispatchAll_next ps _).trans
    (congrArg Host.Outcome.next (receivedAll_withLine s ps rx s.linkUp s.farEnd))

/-! ### Received bytes with the link up (rules R67, R73) -/

theorem opRxByte_of_linkUp {s : State} (hup : s.linkUp = true) (b : Byte) :
    opRxByte b s =
      dispatchAll (decodeStep s.params.strictCont s.rxState b).2.toList
        { s with rxState := (decodeStep s.params.strictCont s.rxState b).1 } := by
  obtain ⟨hdown, -⟩ | ⟨-, hnone, e⟩ | ⟨p, -, hsome, e⟩ := opRxByte_cases b s
  · exact absurd (hup.symm.trans hdown) nofun
  · rw [e, hnone]
    rfl
  · rw [e, hsome, Option.toList_some, dispatchAll_singleton, dispatch_next]

/-- The Packets of some bytes are dispatched as the decoder emits them; the decoder ends where it ends. -/
theorem rxBytes_of_linkUp {s : State} (hup : s.linkUp = true) (bs : List Byte) :
    rxBytes bs s =
      .next ((s.receivedAll (decodeRun s.params.strictCont s.rxState bs).2).withLine
        (decodeRun s.params.strictCont s.rxState bs).1 s.linkUp s.farEnd) := by
  induction bs generalizing s with
  | nil => rfl
  | cons b bs ih =>
    generalize hd : decodeStep s.params.strictCont s.rxState b = d
    obtain ⟨-, -, -, -, -, -, -, hparams, -⟩ := receivedAll_frame s d.2.toList
    have hrest := ih (s := (s.receivedAll d.2.toList).withLine d.1 s.linkUp s.farEnd) hup
    rw [State.withLine_params, hparams, receivedAll_withLine, ← receivedAll_append] at hrest
    rw [rxBytes, opRxByte_of_linkUp hup, dispatchAll_setRx, andThen_next, decodeRun_cons, hd]
    exact hrest

theorem opDrain_of_linkUp {s : State} (hup : s.linkUp = true) (bs : List Byte) :
    opDrain bs s =
      dispatchAll (decodeRun s.params.strictCont s.rxState bs).2
        { s with rxState := (decodeRun s.params.strictCont s.rxState bs).1 } := by
  rw [opDrain, if_pos hup, rxBytes_of_linkUp hup, dispatchAll_setRx]

/-- Settles O5: a Packet by its channel and mode, bytes by the Packets the decoder emits on them. -/
theorem dispatchSelectsAndRunsInEmissionOrder :
    Obligations.DispatchSelectsAndRunsInEmissionOrder := by
  refine ⟨fun p s => ?_, fun bs s hup => opDrain_of_linkUp hup bs,
    fun b s hup => opRxByte_of_linkUp hup b⟩
  rw [dispatch_next, received_eq_by_channel_and_mode]

/-! ### A drain byte by byte (rule R73) -/

theorem opDrain_of_linkDown {s : State} (hdown : s.linkUp = false) (bs : List Byte) :
    opDrain bs s = .next s := by
  simp [opDrain, hdown]

theorem opDrain_nil (s : State) : opDrain [] s = .next s := ite_self _

/-- A received byte leaves the link as it is, so the rest of the drain sees the same link. -/
theorem opDrain_cons (b : Byte) (bs : List Byte) (s : State) :
    opDrain (b :: bs) s = andThen (opRxByte b s) (opDrain bs) := by
  cases hlink : s.linkUp with
  | false => rw [opDrain_of_linkDown hlink, opRxByte_of_linkDown hlink, andThen_next,
      opDrain_of_linkDown hlink]
  | true =>
    obtain ⟨ps, rx, hb⟩ := opRxByte_receives b s
    rw [opDrain, if_pos hlink, rxBytes, hb, andThen_next, andThen_next]
    exact (if_pos hlink).symm

theorem opDrain_append (xs ys : List Byte) (s : State) :
    opDrain (xs ++ ys) s = andThen (opDrain xs s) (opDrain ys) := by
  induction xs generalizing s with
  | nil => rw [opDrain_nil]; rfl
  | cons x xs ih => rw [List.cons_append, opDrain_cons, funext ih, opDrain_cons, andThen_assoc]

/-- How many bytes of a frame the decoder holds (rules R14, R15). -/
def bytesHeld : RxState → Nat
  | .awaitSync => 0
  | .haveFirst _ => 1
  | .haveSecond _ _ => 2

theorem bytesHeld_le (rx : RxState) : bytesHeld rx ≤ 2 := by
  cases rx <;> simp [bytesHeld]

/-- Of the bytes held and the one arriving, an emitted Packet uses three. -/
theorem bytesHeld_decodeStep (strict : Bool) (rx : RxState) (b : Byte) :
    3 * (decodeStep strict rx b).2.toList.length + bytesHeld (decodeStep strict rx b).1 ≤
      bytesHeld rx + 1 := by
  obtain ⟨e, -⟩ | ⟨e, -⟩ | ⟨b0, rfl, e, -⟩ | ⟨b0, b1, rfl, e, -⟩ := decodeStep_cases strict rx b <;>
    simp [e, bytesHeld]

theorem bytesHeld_decodeRun (strict : Bool) (rx : RxState) (bs : List Byte) :
    3 * (decodeRun strict rx bs).2.length + bytesHeld (decodeRun strict rx bs).1 ≤
      bytesHeld rx + bs.length := by
  induction bs generalizing rx with
  | nil => simp
  | cons b bs ih =>
    have hfirst := bytesHeld_decodeStep strict rx b
    have hrest := ih (decodeStep strict rx b).1
    simp only [decodeRun_cons, List.length_append, List.length_cons]
    omega

/-- Settles O22: a drain is received byte by byte, and every Packet uses up three bytes, of which at most
two were held before. -/
theorem drainIsAFoldAndSplitsAnywhere : Obligations.DrainIsAFoldAndSplitsAnywhere := by
  refine ⟨opDrain_nil, opDrain_cons, opDrain_append, fun strict rx bs => ?_⟩
  have hrun := bytesHeld_decodeRun strict rx bs
  have hheld := bytesHeld_le rx
  omega

/-- Settles O23: both operations are guarded by the link state. -/
theorem linkDownReceivesNothing : Obligations.LinkDownReceivesNothing := by
  intro b bs s hdown
  have hbyte : perform (.rxByte b) s = .next s := opRxByte_of_linkDown hdown b
  have hdrain : perform (.drain bs) s = .next s := opDrain_of_linkDown hdown bs
  refine ⟨hbyte, hdrain, ?_⟩
  rw [performAll_cons, hdrain, andThen_next, performAll_cons, hbyte, andThen_next]
  rfl

/-! ### The step that serves the bytes of one frame (rules R41, R81) -/

/-- Decoding at a frame boundary reads three bytes and leaves the rest. -/
theorem length_of_decodeWith_ok {strict : Bool} {bs rest : List Byte} {i : Instr}
    (h : decodeWith strict bs = .ok (i, rest)) : bs.length = rest.length + 3 := by
  obtain ⟨-, e⟩ | ⟨b0, b1, b2, rest', rfl, ⟨-, e⟩ | ⟨-, -, e⟩ | ⟨-, -, e⟩⟩ :=
    decodeWith_cases strict bs <;> cases e.symm.trans h
  rfl

/-- Decoding at a frame boundary is what the byte-at-a-time decoder does from AwaitSync. -/
theorem decodeRun_of_decodeWith {strict : Bool} {bs : List Byte} {i : Instr}
    (h : decodeWith strict bs = .ok (i, [])) :
    ∃ p, classify p = i ∧ decodeRun strict .awaitSync bs = (.awaitSync, [p]) := by
  obtain ⟨-, e⟩ | ⟨b0, b1, b2, rest, rfl, ⟨-, e⟩ | ⟨-, -, e⟩ | ⟨h0, hcont, e⟩⟩ :=
    decodeWith_cases strict bs <;> cases e.symm.trans h
  rw [Bool.and_or_distrib_left] at hcont
  obtain ⟨h1, h2⟩ := Bool.or_eq_false_iff.mp hcont
  exact ⟨_, rfl, decodeRun_three_noise h0 h1 h2 (List.forall_mem_nil _)⟩

theorem opDrain_of_decodeWith {s : State} {bs : List Byte} {i : Instr} (hup : s.linkUp = true)
    (hrx : s.rxState = .awaitSync) (hi : decodeWith s.params.strictCont bs = .ok (i, [])) :
    opDrain bs s = exec i s := by
  obtain ⟨p, rfl, hrun⟩ := decodeRun_of_decodeWith hi
  rw [opDrain_of_linkUp hup, hrx, hrun, dispatchAll_singleton, dispatch, ← hrx]

theorem step_of_drain {s : State} {bs : List Byte} {rest : List Request} {i : Instr}
    (hup : s.linkUp = true) (hrx : s.rxState = .awaitSync) (hs : s.requests = .drain bs :: rest)
    (hi : decodeWith s.params.strictCont bs = .ok (i, [])) :
    step s = exec i { s with requests := rest } :=
  (step_of_requests_cons hs).trans (opDrain_of_decodeWith hup hrx hi)

/-- Settles O8: three bytes by the decoder's run on them, a completing byte by its decoder step. -/
theorem stepRunsDecodedInstruction : Obligations.StepRunsDecodedInstruction :=
  ⟨fun _ _ _ _ _ _ hup hrx hs hi => step_of_drain hup hrx hs hi,
    fun _ _ _ _ _ hup hs hd =>
      (step_of_requests_cons hs).trans (opRxByte_of_decodeStep_some hup hd)⟩

theorem decodeWith_tableWordBytes {nbits w : Nat} {i : Instr} (h : decodeTableWord nbits w = some i) :
    decodeWith false (tableWordBytes nbits w) = .ok (i, []) := by
  unfold decodeTableWord at h
  split at h
  · next j rest hok =>
    cases h
    have hlength : 3 = rest.length + 3 := length_of_decodeWith_ok hok
    obtain rfl : rest = [] := List.length_eq_zero_iff.mp (by omega)
    exact hok
  · cases h

/-- Settles O9: the placed word is a drain of its bytes at a frame boundary with the link up. -/
theorem stepRunsPlacedTableWord : Obligations.StepRunsPlacedTableWord := by
  intro s nbits w i hlax hi
  have hdecode := decodeWith_tableWordBytes hi
  rw [← hlax] at hdecode
  exact step_of_drain (s := s.withFetchWord nbits w) rfl rfl rfl hdecode

end Sys2Proof.Machine
end

section
/-! A frame class is selected by match and mask (rule R51): the row's test reads the class bits of byte0 and,
for the strict decoder, the markers of the continuation bytes. -/

namespace Sys2Proof.Machine

/-! ### The 24-bit word, byte by byte (rule R47) -/

/-- A frame is the frame of its word. -/
theorem ofWord_word (f : Frame) : Frame.ofWord f.word = f := by
  obtain ⟨b0, b1, b2⟩ := f
  have h0 : (b0 ++ b1 ++ b2).extractLsb' 16 8 = b0 := by
    rw [BitVec.extractLsb'_append_eq_of_le (by omega), BitVec.extractLsb'_append_eq_left]
  have h1 : (b0 ++ b1 ++ b2).extractLsb' 8 8 = b1 := by
    rw [BitVec.extractLsb'_append_eq_of_le (by omega), BitVec.extractLsb'_append_eq_right]
  have h2 : (b0 ++ b1 ++ b2).extractLsb' 0 8 = b2 := BitVec.extractLsb'_append_eq_right
  simp only [Frame.ofWord, Frame.word, h0, h1, h2]

theorem word_inj {f g : Frame} : f.word = g.word ↔ f = g :=
  ⟨fun h => by rw [← ofWord_word f, h, ofWord_word], congrArg Frame.word⟩

theorem and_word (f g : Frame) :
    f.word &&& g.word =
      Frame.word ⟨f.byte0 &&& g.byte0, f.byte1 &&& g.byte1, f.byte2 &&& g.byte2⟩ :=
  BitVec.and_append.trans (congrArg (· ++ _) BitVec.and_append)

theorem or_word (f g : Frame) :
    f.word ||| g.word =
      Frame.word ⟨f.byte0 ||| g.byte0, f.byte1 ||| g.byte1, f.byte2 ||| g.byte2⟩ :=
  BitVec.or_append.trans (congrArg (· ++ _) BitVec.or_append)

theorem channel_of_word (f : Frame) :
    f.word.extractLsb' 20 3 = (assemble f.byte0 f.byte1 f.byte2).channel :=
  (BitVec.extractLsb'_append_eq_of_le (by omega)).trans
    (BitVec.extractLsb'_append_eq_of_le (by omega))

/-! ### A row's test (rule R51) -/

/-- What the strict decoder tests of a continuation byte: its marker, bit 7 (rule R72). -/
def continuationMask (strict : Bool) : Byte := if strict then 0x80#8 else 0#8

theorem strictBits_eq_word (strict : Bool) :
    strictBits strict = Frame.word ⟨0#8, continuationMask strict, continuationMask strict⟩ := by
  cases strict <;> rfl

theorem and_continuationMask_eq_iff (strict : Bool) (b : Byte) :
    b &&& continuationMask strict = continuationMask strict ↔ (strict && isSync b) = false := by
  have hmarker : ∀ b : Byte, b &&& 0x80#8 = 0x80#8 ↔ isSync b = false := by decide
  cases strict with
  | false => simp [continuationMask]
  | true => exact hmarker b

/-- A row whose mask and match lie in byte0 tests byte0 and, if strict, the continuation markers. -/
theorem meetsRow_iff_bytes (strict : Bool) (mask mtch : Byte) (f : Frame) :
    meetsRow strict (Frame.word ⟨mask, 0#8, 0#8⟩) (Frame.word ⟨mtch, 0#8, 0#8⟩) f.word = true ↔
      f.byte0 &&& mask = mtch ∧ (strict && isSync f.byte1) = false ∧
        (strict && isSync f.byte2) = false := by
  simp only [meetsRow, beq_iff_eq, strictBits_eq_word, or_word, and_word, word_inj, Frame.mk.injEq,
    BitVec.or_zero, BitVec.zero_or, and_continuationMask_eq_iff]

/-- The command rows read the marker, the channel and the mode of byte0. -/
theorem byte0_meets_command_iff : ∀ (b : Byte) (m : Mode),
    b &&& 0xFC#8 = 0#1 ++ cmdAddr ++ m ++ 0#2 ↔
      isSync b = true ∧ b.extractLsb' 4 3 = cmdAddr ∧ b.extractLsb' 2 2 = m := by
  decide

/-- The data rows read the marker and the mode of byte0. -/
theorem byte0_meets_data_iff : ∀ (b : Byte) (m : Mode),
    b &&& 0x8C#8 = 0#4 ++ m ++ 0#2 ↔ isSync b = true ∧ b.extractLsb' 2 2 = m := by
  decide

/-! ### The classes (rule R52) -/

/-- The class of a Packet is the one well-formed instruction that stands for it. -/
theorem classify_eq_iff (p : Packet) (i : Instr) : classify p = i ↔ i.wf = true ∧ p = i.packet := by
  constructor
  · rintro rfl
    exact ⟨classify_wf p, (packet_classify p).symm⟩
  · rintro ⟨hwf, rfl⟩
    exact classify_packet i hwf

/-- Three bytes are read as an instruction when the decoder accepts each of them. -/
theorem decodeWith_bytes_eq_ok_iff (strict : Bool) (f : Frame) (i : Instr) :
    decodeWith strict f.bytes = .ok (i, []) ↔
      (isSync f.byte0 = true ∧ (strict && isSync f.byte1) = false ∧
        (strict && isSync f.byte2) = false) ∧
      i.wf = true ∧ assemble f.byte0 f.byte1 f.byte2 = i.packet := by
  rw [Frame.bytes, decodeWith_three, ← Bool.or_eq_false_iff, ← Bool.and_or_distrib_left,
    ← classify_eq_iff]
  cases isSync f.byte0 with
  | false => simp
  | true => cases strict && (isSync f.byte1 || isSync f.byte2) <;> simp

/-- A command class is selected by the marker, the channel and the mode. -/
theorem decodes_to_command_iff (strict : Bool) (f : Frame) (m : Mode) {i : U16 → Instr}
    (hwf : ∀ v, (i v).wf = true)
    (hpacket : ∀ v, (i v).packet = { channel := cmdAddr, mode := m, value := v }) :
    (∃ v, decodeWith strict f.bytes = .ok (i v, [])) ↔
      meetsRow strict (Frame.word ⟨0xFC#8, 0#8, 0#8⟩)
        (Frame.word ⟨0#1 ++ cmdAddr ++ m ++ 0#2, 0#8, 0#8⟩) f.word = true := by
  rw [meetsRow_iff_bytes, byte0_meets_command_iff]
  simp only [decodeWith_bytes_eq_ok_iff, hwf, hpacket, assemble, Packet.mk.injEq,
    true_and]
  constructor
  · rintro ⟨v, ⟨h0, hcont⟩, hchannel, hmode, -⟩
    exact ⟨⟨h0, hchannel, hmode⟩, hcont⟩
  · rintro ⟨⟨h0, hchannel, hmode⟩, hcont⟩
    exact ⟨_, ⟨h0, hcont⟩, hchannel, hmode, rfl⟩

/-- A data class is selected by the marker and the mode, of the channels that are no command. -/
theorem decodes_to_data_iff (strict : Bool) (f : Frame) (m : Mode) {i : Channel → U16 → Instr}
    (hwf : ∀ c v, (i c v).wf = (c != cmdAddr))
    (hpacket : ∀ c v, (i c v).packet = { channel := c, mode := m, value := v }) :
    (∃ c v, decodeWith strict f.bytes = .ok (i c v, [])) ↔
      meetsRow strict (Frame.word ⟨0x8C#8, 0#8, 0#8⟩) (Frame.word ⟨0#4 ++ m ++ 0#2, 0#8, 0#8⟩)
          f.word = true ∧
        f.word.extractLsb' 20 3 ≠ cmdAddr := by
  rw [meetsRow_iff_bytes, byte0_meets_data_iff, channel_of_word]
  simp only [decodeWith_bytes_eq_ok_iff, hwf, hpacket, assemble, Packet.mk.injEq, bne_iff_ne]
  constructor
  · rintro ⟨c, v, ⟨h0, hcont⟩, hc, rfl, hmode, -⟩
    exact ⟨⟨⟨h0, hmode⟩, hcont⟩, hc⟩
  · rintro ⟨⟨⟨h0, hmode⟩, hcont⟩, hc⟩
    exact ⟨_, _, ⟨h0, hcont⟩, hc, rfl, hmode, rfl⟩

/-- Settles O17, one use for each row of the two lemmas on command rows and data rows. -/
theorem classesAreSelectedByMatchAndMask : Obligations.ClassesAreSelectedByMatchAndMask := by
  intro strict f
  have command (m : Mode) {i : U16 → Instr} := decodes_to_command_iff strict f m (i := i)
  have data (m : Mode) {i : Channel → U16 → Instr} := decodes_to_data_iff strict f m (i := i)
  exact ⟨command 0#2 (fun _ => rfl) (fun _ => rfl), command 1#2 (fun _ => rfl) (fun _ => rfl),
    command 2#2 (fun _ => rfl) (fun _ => rfl), command 3#2 (fun _ => rfl) (fun _ => rfl),
    data 0#2 (fun _ _ => rfl) (fun _ _ => rfl), data 1#2 (fun _ _ => rfl) (fun _ _ => rfl),
    data 2#2 (fun _ _ => rfl) (fun _ _ => rfl), data 3#2 (fun _ _ => rfl) (fun _ _ => rfl)⟩

end Sys2Proof.Machine
end

section
/-! SEND with the link up (rules R63, R65), LINK_SET and the link down (rule R122), and RESET (rules R29,
R133, R134). -/

namespace Sys2Proof.Machine

/-! ### SEND (rules R63, R65) -/

theorem sendFrame_eq (s : State) (p : Packet) :
    s.sendFrame p =
      { s with
        txStream := s.txStream ++ (encodePacket p).bytes
        tbl := if p.channel = cmdAddr then s.tbl
          else s.tbl.set p.channel.toNat (some p.value) p.channel.isLt
        last := some p
        events := s.events ++ [.echo p.value p.channel p.mode] } := by
  rw [State.sendFrame, State.setTbl]
  split <;> rfl

theorem opSend_of_linkUp (value channel mode : Nat) {s : State} (hup : s.linkUp = true) :
    opSend value channel mode s = s.sendFrame (maskFields value channel mode) := if_pos hup

/-- Settles O30: with the link up SEND is the sending of the masked Packet's frame. -/
theorem sendWritesRecordsAndEchoes : Obligations.SendWritesRecordsAndEchoes := by
  intro value channel mode s hup v c m
  exact congrArg Host.Outcome.next ((opSend_of_linkUp value channel mode hup).trans (sendFrame_eq s _))

/-! ### The link state (rule R122) -/

/-- SET_TARGET tests the axis and writes its target, whatever the link. -/
theorem perform_setTarget_setLink (a : Dac) (t : U16) (u : Bool) (s : State) :
    perform (.setTarget a t) { s with linkUp := u } =
      andThen (perform (.setTarget a t) s) fun s' => .next { s' with linkUp := u } := by
  simp only [perform, opSetTarget]
  split <;> rfl

/-- Settles O32, operation by operation. -/
theorem linkSetAndTheEffectsOfALinkDown : Obligations.LinkSetAndTheEffectsOfALinkDown := by
  refine ⟨fun _ _ => rfl, fun v c m b bs s hdown => ?_, fun axes s t hdown ht => ?_,
    fun r u s hr => ?_, fun _ _ => rfl⟩
  · exact ⟨congrArg _ (opSend_of_linkDown v c m hdown), opRxByte_of_linkDown hdown b,
      opDrain_of_linkDown hdown bs⟩
  · obtain rfl : t = tick axes s := eq_of_guarded_next ht
    exact tick_outputs_down axes s hdown
  · obtain rfl | rfl | ⟨c, rfl⟩ | ⟨a, t, rfl⟩ := hr
    · rfl
    · rfl
    · rfl
    · exact perform_setTarget_setLink a t u s

/-! ### RESET (rules R29, R133, R134) -/

/-- After power-on no entry of the Channel Table is known. -/
theorem tblAt_powerOn (p : Params) (c : Channel) : (State.powerOn p).tblAt c = none := by
  obtain ⟨-, -, htbl, hcmd⟩ := historyInv_powerOn p
  by_cases hc : c = cmdAddr
  · rw [hc, hcmd]
  · exact htbl c hc

theorem movedAxes_eq_nil {s : State} (h : ∀ a : Dac, s.current[a] = s.target[a])
    (axes : Vector Bool 4) : s.movedAxes axes = [] :=
  List.eq_nil_iff_forall_not_mem.mpr fun a ha =>
    let ⟨_, _, hoff⟩ := (mem_movedAxes s axes a).mp ha
    hoff (h a)

/-- A tick with every axis on target sends nothing and raises nothing, whatever the link. -/
theorem tick_outputs_of_onTarget {s : State} (h : ∀ a : Dac, s.current[a] = s.target[a])
    (axes : Vector Bool 4) :
    (tick axes s).txStream = s.txStream ∧ (tick axes s).events = s.events := by
  cases hlink : s.linkUp with
  | false =>
    obtain ⟨htx, hev, -⟩ := tick_outputs_down axes s hlink
    exact ⟨htx, hev⟩
  | true =>
    obtain ⟨htx, hev⟩ := tick_outputs_up axes s hlink
    rw [movedAxes_eq_nil h axes, tickPackets_nil] at htx hev
    exact ⟨htx.trans (List.append_nil _), hev.trans (List.append_nil _)⟩

/-- Settles O33: RESET writes the state after power-on, where current and target are one vector. -/
theorem resetSetsEveryElement : Obligations.ResetSetsEveryElement := by
  refine fun s => ⟨opReset s, rfl, rfl, tblAt_powerOn s.params, rfl,
    fun a _ => ⟨rfl, rfl, beq_self_eq_true _⟩, rfl, rfl, rfl, fun axes up haxes => ?_⟩
  obtain ⟨htx, hev⟩ :=
    tick_outputs_of_onTarget (s := { opReset s with linkUp := up }) (fun _ => rfl) axes
  exact ⟨_, perform_moveTick haxes, htx, hev⟩

/-- Settles O34: RESET takes every element of the unit from the state after power-on, and the far end but for
the line's position from the state before. -/
theorem powerOnIsResetAndFarEndIsKept : Obligations.PowerOnIsResetAndFarEndIsKept :=
  fun s => ⟨opReset s, rfl, ⟨rfl, rfl, rfl, rfl, rfl, rfl, rfl, rfl⟩, rfl, rfl, rfl, rfl, rfl⟩

/-- Settles O35: the state after power-on, at the reference parameters. -/
theorem resetStateHoldsTheStatedValues : Obligations.ResetStateHoldsTheStatedValues := by
  refine ⟨rfl, tblAt_powerOn _, rfl, rfl, rfl, rfl, ?_, rfl, rfl, rfl⟩
  decide

/-- Settles O36: the fields of the model's own that RESET names, and those it takes from the state after
power-on. -/
theorem resetOfTheModelsOwnFields : Obligations.ResetOfTheModelsOwnFields :=
  fun s => ⟨opReset s, rfl, rfl, rfl, rfl, rfl, rfl, rfl⟩

/-- Settles O55: after power-on nothing is held, nothing passed, nothing known and nothing sent. -/
theorem resetMeetsBothInvariants : Obligations.ResetMeetsBothInvariants :=
  ⟨⟨rfl, rfl, le_rfl⟩, historyInv_powerOn Params.reference⟩

end Sys2Proof.Machine
end

section
/-! The slew step as a distance closed (rules R95, R96), what one tick does to each axis (rules R99, R102),
and the number of ticks an axis needs (rule R105). -/

namespace Sys2Proof.Machine

/-! ### Addresses outside AXES (log entry 14) -/

theorem axesOnly_eq_false {p : Params} {axes : Vector Bool 4} {a : Dac} (ha : axes[a] = true)
    (haxis : p.isAxis[a] = false) : axesOnly p axes = false :=
  Bool.eq_false_iff.mpr fun h =>
    absurd ((axesOnly_iff p axes).mp h a ha) (Bool.eq_false_iff.mp haxis)

/-- Settles O38: each of the three operations tests every address it names. -/
theorem addressesOutsideAxesAreRefused : Obligations.AddressesOutsideAxesAreRefused := by
  intro a s haxis
  refine ⟨fun t => ?_, fun axes ha => ?_, fun targets ha => ?_⟩
  · simp only [perform, opSetTarget, haxis, Bool.false_eq_true, if_false]
  · simp only [perform, opMoveTick, axesOnly_eq_false ha haxis, Bool.false_eq_true, if_false]
  · have hdomain : (domainOf targets)[a] = true := by
      rw [domainOf_get]
      exact Option.isSome_iff_ne_none.mpr ha
    simp only [perform, opMoveToTarget, axesOnly_eq_false hdomain haxis, Bool.false_eq_true, if_false]

/-! ### The slew step (rules R95, R96) -/

/-- The distance of two values (rule R96). -/
def distance (x y : Nat) : Nat := max x y - min x y

theorem distance_comm (x y : Nat) : distance x y = distance y x := by
  rw [distance, max_comm, min_comm, distance]

/-- Of the distance to the target, a step closes the step size, and no more than there is. -/
theorem distance_slewNat (step cur tgt : Nat) :
    distance tgt (slewNat step cur tgt) = distance tgt cur - step := by
  unfold distance slewNat
  split_ifs <;> omega

/-- A step goes as far as the step size, and no farther than the target. -/
theorem distance_slewNat_start (step cur tgt : Nat) :
    distance (slewNat step cur tgt) cur = min step (distance tgt cur) := by
  unfold distance slewNat
  split_ifs <;> omega

theorem distance_eq_zero_iff (x y : U16) : distance x.toNat y.toNat = 0 ↔ x = y := by
  rw [← BitVec.toNat_inj, distance]
  omega

theorem slew_eq_target {step : StepSize} {cur tgt : U16}
    (h : distance tgt.toNat cur.toNat ≤ step.val) : slew step cur tgt = tgt := by
  rw [eq_comm, ← distance_eq_zero_iff, slew_toNat, distance_slewNat]
  exact Nat.sub_eq_zero_of_le h

theorem slew_self (step : StepSize) (v : U16) : slew step v v = v :=
  slew_eq_target (((distance_eq_zero_iff v v).mpr rfl).trans_le (Nat.zero_le _))

/-- Settles O39, by the two distances of a step: to the target and from the start. -/
theorem slewStepIsLimitedAndNeverOvershoots : Obligations.SlewStepIsLimitedAndNeverOvershoots := by
  intro step cur tgt c t n dist
  have hn : n = slewNat step.val c t := slew_toNat step cur tgt
  have htarget : dist t n = dist t c - step.val := hn ▸ distance_slewNat step.val c t
  have hstart : dist n c = min step.val (dist t c) := hn ▸ distance_slewNat_start step.val c t
  refine ⟨hn, hn ▸ min_le_slewNat step.val c t, hn ▸ slewNat_le step.val c t, fun h => ⟨?_, htarget⟩,
    slew_eq_target, fun h => ?_⟩
  · omega
  · rw [(distance_eq_zero_iff tgt cur).mp h, slew_self]

/-! ### A tick with the link down (rule R99) -/

theorem tick_of_linkDown {s : State} (hdown : s.linkUp = false) (axes : Vector Bool 4) :
    tick axes s = (s.slewAxes axes).giveResult (.moving ((s.slewAxes axes).anyMoving axes)) := by
  simp [tick, hdown]

/-- Every axis of the set makes the step, which moves nothing where there is no distance. -/
theorem slewAxes_current_of_axesOnly {s : State} {axes : Vector Bool 4}
    (haxes : axesOnly s.params axes = true) (a : Dac) :
    (s.slewAxes axes).current[a] =
      if axes[a] = true then slew s.params.stepSize s.current[a] s.target[a] else s.current[a] := by
  rw [slewAxes_current]
  by_cases ha : axes[a] = true
  · by_cases htarget : s.current[a] = s.target[a]
    · rw [htarget, slew_self, ite_self, ite_self]
    · rw [if_pos ha, if_pos ((mem_movedAxes s axes a).mpr
        ⟨(axesOnly_iff _ _).mp haxes a ha, ha, htarget⟩)]
  · rw [if_neg ha, if_neg fun hmem => ha ((mem_movedAxes s axes a).mp hmem).2.1]

/-- Settles O42: with the link down a tick is its steps and its result. -/
theorem tickWithLinkDownMovesUnseen : Obligations.TickWithLinkDownMovesUnseen := by
  intro axes s hdown haxes
  refine ⟨(s.slewAxes axes).current, slewAxes_current_of_axesOnly haxes, ?_⟩
  rw [perform_moveTick haxes, tick_of_linkDown hdown]
  rfl

/-! ### One axis (rule R102) -/

/-- How far an axis is from its target (rule R96). -/
def State.distanceOf (s : State) (a : Dac) : Nat := distance s.current[a].toNat s.target[a].toNat

theorem moving_iff_distanceOf (s : State) (a : Dac) : s.moving a = true ↔ 0 < s.distanceOf a := by
  rw [State.moving, bne_iff_ne, Nat.pos_iff_ne_zero, State.distanceOf, Ne, Ne, distance_eq_zero_iff]

/-- A tick brings each axis of its set nearer by the step size, or onto its target. -/
theorem distanceOf_tick {s : State} {axes : Vector Bool 4} {a : Dac}
    (haxes : axesOnly s.params axes = true) (ha : axes[a] = true) :
    (tick axes s).distanceOf a = s.distanceOf a - s.params.stepSize.val := by
  obtain ⟨hcurrent, htarget, -⟩ := tick_frame axes s
  rw [State.distanceOf, hcurrent, htarget, slewAxes_current_of_axesOnly haxes, if_pos ha, slew_toNat,
    distance_comm, distance_slewNat, distance_comm, State.distanceOf]

/-- Whatever the link, the frames of a tick name axes that moved. -/
theorem tick_txStream_names_moved (axes : Vector Bool 4) (s : State) :
    ∃ ps, (tick axes s).txStream = s.txStream ++ wire ps ∧
      ∀ p ∈ ps, ∃ b ∈ s.movedAxes axes, dacChannel b = p.channel := by
  cases hlink : s.linkUp with
  | false =>
    obtain ⟨htx, -⟩ := tick_outputs_down axes s hlink
    exact ⟨[], htx.trans (List.append_nil _).symm, List.forall_mem_nil _⟩
  | true =>
    obtain ⟨hchannels, -⟩ := tickPackets_axes (s.slewAxes axes) (s.movedAxes axes)
    exact ⟨s.packetsOfTick axes, tick_txStream hlink axes, fun p hp =>
      List.mem_map.mp (hchannels ▸ List.mem_map_of_mem hp)⟩

/-- Settles O44, by the distance to the target, and by the axes a tick's frames name. -/
theorem axisStateMachine : Obligations.AxisStateMachine := by
  intro a s haxis
  refine ⟨fun t => ⟨_, perform_setTarget haxis t, ?_⟩,
    fun axes haxes ha => ⟨_, perform_moveTick haxes, ?_, fun honTarget => ⟨?_, ?_⟩⟩⟩
  · rw [State.moving, bne_iff_ne, State.writeTarget_target, set_get, if_pos rfl, ne_comm]
    rfl
  · rw [moving_iff_distanceOf, distanceOf_tick haxes ha, Nat.sub_pos_iff_lt]
    rfl
  · obtain ⟨hcurrent, -⟩ := tick_frame axes s
    rw [hcurrent, slewAxes_current_of_axesOnly haxes, ← eq_of_beq honTarget, slew_self, ite_self]
  · obtain ⟨ps, htx, hps⟩ := tick_txStream_names_moved axes s
    refine ⟨ps, htx, fun p hp hchannel => ?_⟩
    obtain ⟨b, hb, hbp⟩ := hps p hp
    obtain rfl : b = a := dacChannel_injective b a (hbp.trans hchannel)
    obtain ⟨-, -, hoff⟩ := (mem_movedAxes s axes b).mp hb
    exact hoff (eq_of_beq honTarget)

/-! ### The number of ticks an axis needs (rule R105) -/

/-- Ticks that all have the axis in their sets bring it nearer by a step size each. -/
theorem performAll_ticks {a : Dac} {sets : List (Vector Bool 4)} {s : State}
    (h : ∀ S ∈ sets, axesOnly s.params S = true ∧ S[a] = true) :
    ∃ t, performAll (sets.map .moveTick) s = .next t ∧
      t.distanceOf a = s.distanceOf a - sets.length * s.params.stepSize.val := by
  induction sets generalizing s with
  | nil => exact ⟨s, rfl, by simp⟩
  | cons S sets ih =>
    obtain ⟨⟨haxes, ha⟩, hrest⟩ := List.forall_mem_cons.mp h
    obtain ⟨-, -, -, -, hparams, -⟩ := tick_frame S s
    obtain ⟨t, ht, hdistance⟩ := ih (s := tick S s) (hparams ▸ hrest)
    refine ⟨t, ?_, ?_⟩
    · rw [List.map_cons, performAll_cons, perform_moveTick haxes, andThen_next, ht]
    · rw [hdistance, distanceOf_tick haxes ha, hparams, Nat.sub_sub, List.length_cons, Nat.succ_mul,
        Nat.add_comm]

/-- Fewer than the rounded-up quotient of steps leave a distance. -/
theorem lt_ceilDiv_iff {n dist step : Nat} (hstep : 0 < step) :
    n < (dist + step - 1) / step ↔ 0 < dist - n * step := by
  rw [Nat.lt_iff_add_one_le, Nat.le_div_iff_mul_le hstep, Nat.succ_mul]
  omega

/-- Settles O45: the axis is Moving as long as the ticks have not closed its distance. -/
theorem axisConvergesInCeilDistanceOverStepTicks :
    Obligations.AxisConvergesInCeilDistanceOverStepTicks := by
  intro a sets s _ hsets dist need
  obtain ⟨t, ht, hdistance⟩ := performAll_ticks hsets
  have hmoving : t.moving a = true ↔ sets.length < need := by
    rw [moving_iff_distanceOf, hdistance]
    exact (lt_ceilDiv_iff s.params.stepSize.property.1).symm
  refine ⟨t, ht, hmoving, ?_⟩
  rw [← Nat.not_lt, ← hmoving, State.moving, State.onTarget, bne, Bool.not_eq_true', Bool.not_eq_false]

end Sys2Proof.Machine
end

section
/-! The DIM's remaining actions (rules R112 to R117), the DIM's power-up, and what comes back over the line: a
reading of an ADC input (rule R114) and the echo of an *Initialize* (rules R87, R91, R115). -/

namespace Sys2Proof.Machine

/-! ### LOADALL (rule R112) -/

theorem feAct_loadAll (a : Dac) (v : U16) (fe : FarEnd) :
    feAct (.loadAll (dacChannel a) v) fe = { fe.setReg a v with out := (fe.setReg a v).reg } := by
  simp only [feAct, feLoadAll, dacOf_dacChannel]

/-- Settles O48: LOADALL writes one register, and the outputs are the registers after it. -/
theorem farEndLoadAllCommitsEveryRegister : Obligations.FarEndLoadAllCommitsEveryRegister := by
  intro a v fe fe'
  have hact : fe' = { fe.setReg a v with out := (fe.setReg a v).reg } := feAct_loadAll a v fe
  have hreg (k : Dac) : fe'.reg[k] = if k = a then some v else fe.reg[k] := by
    rw [hact]
    exact set_get fe.reg k a (some v)
  refine ⟨?_, fun k hk => ?_, fun k => ?_, ?_⟩
  · rw [hreg, if_pos rfl]
  · rw [hreg, if_neg hk]
  · rw [hact]
  · rw [hact]
    rfl

/-! ### *Save* (rules R92, R116) -/

theorem eepromValue_feCmdSave (v : U16) (fe : FarEnd) (a : Dac) :
    (feCmdSave v fe).eepromValue a = Config.savedValue fe.reg fe.out a := by
  rw [FarEnd.eepromValue, feCmdSave_eeprom, quad_get, Option.getD_some]

/-- Settles O51: what is stored is read off registers and outputs, which a *Save* does not write. -/
theorem farEndSaveIsIdempotent : Obligations.FarEndSaveIsIdempotent :=
  fun v _ fe => ⟨eepromValue_feCmdSave v fe, rfl, rfl, rfl⟩

/-! ### *Initialize* (rule R115) -/

/-- The Packets of the echo, in the order drawn. -/
def FarEnd.echoPackets (fe : FarEnd) : List Packet :=
  (pickOrder 4 (Config.freeOrder (fe.draws + 9)) dacs).map fun a =>
    dacPacket (Config.freeMode (fe.draws + 5 + a.val)) a (fe.eepromValue a)

theorem echoFrames_bytes (fe : FarEnd) : fe.echoFrames.flatMap Frame.bytes = wire fe.echoPackets := by
  rw [FarEnd.echoFrames, FarEnd.echoPackets, wire, List.flatMap_map, List.flatMap_map]
  rfl

theorem feCmdInit_sent_wire (v : U16) (fe : FarEnd) :
    (feCmdInit v fe).sent = fe.sent ++ wire fe.echoPackets := by
  rw [feCmdInit_sent, echoFrames_bytes]

/-- Every DAC channel is echoed once. -/
theorem echoPackets_channels_perm (fe : FarEnd) :
    (fe.echoPackets.map (·.channel)).Perm (dacs.map dacChannel) := by
  rw [FarEnd.echoPackets, List.map_map]
  exact (pickOrder_perm 4 _ dacs rfl).map dacChannel

theorem toDac_of_mem_echoPackets {fe : FarEnd} {p : Packet} (hp : p ∈ fe.echoPackets) : toDac p := by
  obtain ⟨a, -, rfl⟩ := List.mem_map.mp hp
  exact ⟨a, rfl⟩

theorem length_echoPackets (fe : FarEnd) : fe.echoPackets.length = 4 := by
  simpa [dacs] using (echoPackets_channels_perm fe).length_eq

theorem echoPackets_value {fe : FarEnd} {p : Packet} (hp : p ∈ fe.echoPackets) {a : Dac}
    (ha : p.channel = dacChannel a) : p.value = fe.eepromValue a := by
  obtain ⟨b, -, rfl⟩ := List.mem_map.mp hp
  obtain rfl : b = a := dacChannel_injective b a ha
  rfl

theorem reg_feCmdInit (v : U16) (fe : FarEnd) (a : Dac) :
    (feCmdInit v fe).reg[a] = some (fe.eepromValue a) := by
  rw [feCmdInit_reg, quad_get]

/-- Settles O50, by the registers loaded and the Packets of the echo. -/
theorem farEndInitializeReloadsAndEchoes : Obligations.FarEndInitializeReloadsAndEchoes :=
  fun v fe => ⟨reg_feCmdInit v fe,
    ⟨fe.echoPackets, feCmdInit_sent_wire v fe, echoPackets_channels_perm fe,
      fun _ hp _ ha => echoPackets_value hp ha⟩,
    fun _ => rfl, fun _ => rfl⟩

/-- Settles O52: a power-up writes no EEPROM cell, and an *Initialize* reads nothing else that shows in the
registers or in the values echoed. -/
theorem dimPowerUpKeepsTheEeprom : Obligations.DimPowerUpKeepsTheEeprom := by
  intro s
  have hunknown (a : Dac) : (quad fun _ => (none : Option U16))[a] = none := quad_get _ a
  exact ⟨s.farEnd.powerCycle, rfl, rfl, rfl, rfl, fun a => ⟨hunknown a, hunknown a, rfl⟩,
    fun v => ⟨rfl, s.farEnd.powerCycle.echoPackets, feCmdInit_sent_wire v s.farEnd.powerCycle,
      echoPackets_channels_perm _, fun _ hp _ ha => echoPackets_value hp ha⟩⟩

/-! ### Where the DIM's action is open (rules R113, R114, R117) -/

theorem feAct_rsvd3 (a : Dac) (v : U16) (fe : FarEnd) :
    feAct (.rsvd3 (dacChannel a) v) fe = fe.drawLatch := by
  simp only [feAct, feRsvd3, dacOf_dacChannel]

/-- A data class at an ADC address leaves the whole far-end state open. -/
theorem feAct_of_adc {i : Instr} (hdac : dacOf i.packet.channel = none)
    (hdata : i.packet.channel ≠ cmdAddr) (fe : FarEnd) : feAct i fe = fe.drawAll := by
  cases i with
  | load c v | loadUpd c v | loadAll c v | rsvd3 c v =>
    have hc : dacOf c = none := hdac
    simp only [feAct, feLoad, feLoadUpd, feLoadAll, feRsvd3, hc]
  | cmdInit v | cmdSave v | cmdRsv2 v | cmdRsv3 v => exact absurd rfl hdata

/-- An open action draws the registers and outputs, or the whole far-end state. -/
theorem feAct_open {i : Instr}
    (hopen : (∃ c v, i = .rsvd3 c v) ∨ (∃ v, i = .cmdRsv2 v) ∨ (∃ v, i = .cmdRsv3 v) ∨
      dacOf i.packet.channel = none ∧ i.packet.channel ≠ cmdAddr) (fe : FarEnd) :
    feAct i fe = fe.drawLatch ∨ feAct i fe = fe.drawAll := by
  obtain ⟨c, v, rfl⟩ | ⟨v, rfl⟩ | ⟨v, rfl⟩ | ⟨hdac, hdata⟩ := hopen
  · simp only [feAct, feRsvd3]
    cases dacOf c with
    | some a => exact .inl rfl
    | none => exact .inr rfl
  · exact .inr rfl
  · exact .inr rfl
  · exact .inr (feAct_of_adc hdac hdata fe)

/-! ### Frames that come back over the line (rules R73, R114) -/

/-- At a frame boundary with the link up, a drain of frames is the receipt of their Packets. -/
theorem opDrain_wire {s : State} (hup : s.linkUp = true) (hrx : s.rxState = .awaitSync)
    (ps : List Packet) : opDrain (wire ps) s = .next (s.receivedAll ps) := by
  rw [opDrain_of_linkUp hup, hrx, decodeRun_wire, ← hrx]
  exact dispatchAll_next ps s

/-- So is the arrival of all the frames the DIM has sent. -/
theorem opLineToUnit_wire {s : State} {ps : List Packet} (hup : s.linkUp = true)
    (hrx : s.rxState = .awaitSync) (hsent : s.farEnd.sent = wire ps) :
    opLineToUnit (3 * ps.length) s =
      .next ((s.receivedAll ps).withLine s.rxState s.linkUp { s.farEnd with sent := [] }) := by
  rw [opLineToUnit, if_pos hup, hsent, ← length_wire, List.take_length, List.drop_length,
    ← receivedAll_withLine]
  exact opDrain_wire (s := s.withLine s.rxState s.linkUp { s.farEnd with sent := [] }) hup hrx ps

/-- A reading that finds the line empty is received as its Packet and leaves the line empty. -/
theorem performAll_dimReading_lineToUnit (a : Adc) (m : Mode) (v : U16) {s : State}
    (hup : s.linkUp = true) (hrx : s.rxState = .awaitSync) (hsent : s.farEnd.sent = []) :
    performAll [.dimReading a m v, .lineToUnit 3] s =
      .next (s.received { channel := adcChannel a, mode := m, value := v }) := by
  let p : Packet := { channel := adcChannel a, mode := m, value := v }
  let s1 : State := s.withLine s.rxState s.linkUp (s.farEnd.sendReading a m v)
  have hwaiting : s1.farEnd.sent = wire [p] := by
    change s.farEnd.sent ++ (encodePacket p).bytes = _
    rw [hsent, List.nil_append, wire_cons, wire_nil, List.append_nil]
  have hempty : { s.farEnd with sent := [] } = s.farEnd := by rw [← hsent]
  calc performAll [.dimReading a m v, .lineToUnit 3] s
      = opLineToUnit 3 s1 := performAll_singleton (.lineToUnit 3) s1
    _ = .next ((s1.receivedAll [p]).withLine s.rxState s.linkUp { s.farEnd with sent := [] }) :=
        opLineToUnit_wire (s := s1) hup hrx hwaiting
    _ = .next (s.received p) := by
        rw [hempty, ← receivedAll_withLine]
        rfl

/-- Settles O49: the open actions are draws, and a reading is received as the Packet it carries. -/
theorem farEndOpenActionsAndItsReadings : Obligations.FarEndOpenActionsAndItsReadings := by
  refine ⟨fun i fe _ hopen => ?_, fun a m v s => ⟨direction_adcChannel a, rfl⟩,
    fun a m v s hup hrx hsent => ?_⟩
  · obtain ⟨htaken, hsent⟩ : (feAct i fe).taken = fe.taken ∧ (feAct i fe).sent = fe.sent := by
      obtain e | e := feAct_open hopen fe <;> rw [e] <;> exact ⟨rfl, rfl⟩
    refine ⟨htaken, hsent, feAct_keeps_sync i fe, ?_⟩
    rintro ⟨a, v, rfl⟩
    rw [feAct_rsvd3]
    exact ⟨rfl, rfl, rfl⟩
  · rw [performAll_dimReading_lineToUnit a m v hup hrx hsent, received_eq_by_channel_and_mode,
      if_pos (adcChannel_ne_cmdAddr a)]

/-! ### Data Packets received (rule R82) -/

theorem tblAt_received (s : State) (p : Packet) {c : Channel} (hc : c ≠ cmdAddr) :
    (s.received p).tblAt c = if p.channel = c then some p.value else s.tblAt c := by
  by_cases hp : p.channel = cmdAddr
  · rw [if_neg (hp.trans_ne hc.symm), State.received, if_pos hp]
    split_ifs <;> rfl
  · rw [State.received, if_neg hp, State.recordReceived]
    exact tblAt_setTbl_of_ne s p.channel c p.value hc

/-- An entry holds the value of the Packets received for it, where they agree. -/
theorem tblAt_receivedAll {ps : List Packet} {c : Channel} {v : U16} (hc : c ≠ cmdAddr)
    (hmem : c ∈ ps.map (·.channel)) (hvalue : ∀ p ∈ ps, p.channel = c → p.value = v) (s : State) :
    (s.receivedAll ps).tblAt c = some v := by
  induction ps using List.reverseRecOn with
  | nil => exact absurd hmem List.not_mem_nil
  | append_singleton ps p ih =>
    rw [receivedAll_append, receivedAll_cons, receivedAll_nil, tblAt_received _ p hc]
    split
    · next hp => rw [hvalue p (by simp) hp]
    · next hp =>
      rw [List.map_append, List.mem_append, List.map_singleton, List.mem_singleton] at hmem
      exact ih (hmem.resolve_right (Ne.symm hp)) fun q hq => hvalue q (List.mem_append_left _ hq)

theorem receivedAll_events {ps : List Packet} (h : ∀ p ∈ ps, p.channel ≠ cmdAddr) (s : State) :
    (s.receivedAll ps).events =
      s.events ++ ps.map fun p => Event.chanUpdate p.channel p.value := by
  induction ps generalizing s with
  | nil => simp
  | cons p ps ih =>
    obtain ⟨hp, hps⟩ := List.forall_mem_cons.mp h
    rw [receivedAll_cons, ih hps, State.received, if_neg hp]
    simp

/-! ### The command sub-protocol end to end (rules R87, R91, R115) -/

/-- At a frame boundary the DIM acts on a frame as on its Packet. -/
theorem feBytes_encodePacket {fe : FarEnd} (hrx : fe.rx = .awaitSync) (strict : Bool) (p : Packet) :
    feBytes strict fe (encodePacket p).bytes = fePacket p fe := by
  have hback : { fe with rx := .awaitSync } = fe := by rw [← hrx]
  simp [Frame.bytes, feByte, hrx, decodeStep_sync, decodeStep_haveFirst, decodeStep_haveSecond, hback]

/-- `s` after INIT is sent and the line has brought its frame to the DIM (rules R59, R63). -/
def State.afterInit (s : State) (value : Nat) : State :=
  opLineToDim 3 (s.sendFrame (maskFields value 7 0))

/-- A DIM at a frame boundary that every earlier byte has reached acts on the frame as *Initialize*. -/
theorem afterInit_farEnd {s : State} (hrx : s.farEnd.rx = .awaitSync)
    (htaken : s.farEnd.taken = s.txStream.length) (value : Nat) :
    (s.afterInit value).farEnd =
      { feCmdInit (BitVec.ofNat 16 value) s.farEnd with taken := s.txStream.length + 3 } := by
  have hflight : (s.sendFrame (maskFields value 7 0)).inFlight 3 =
      (encodePacket (maskFields value 7 0)).bytes := by
    rw [State.inFlight, State.sendFrame_farEnd, State.sendFrame_txStream, htaken, List.drop_left]
    rfl
  have hsync : holdsSync (s.sendFrame (maskFields value 7 0)).farEnd.rx = true := by
    rw [State.sendFrame_farEnd, hrx]
    rfl
  rw [State.afterInit, opLineToDim_farEnd hsync, hflight, State.sendFrame_farEnd,
    feBytes_encodePacket hrx, htaken]
  rfl

/-- The round trip ends with the Packets of the echo received and the line empty. -/
theorem performAll_initRoundTrip {s : State} (hup : s.linkUp = true) (hrx : s.rxState = .awaitSync)
    (hferx : s.farEnd.rx = .awaitSync) (htaken : s.farEnd.taken = s.txStream.length)
    (hsent : s.farEnd.sent = []) (value : Nat) :
    performAll [.send value 7 0, .lineToDim 3, .lineToUnit 12] s =
      .next (((s.afterInit value).receivedAll s.farEnd.echoPackets).withLine .awaitSync true
        { (s.afterInit value).farEnd with sent := [] }) := by
  have hup' : (s.afterInit value).linkUp = true := by simpa [State.afterInit] using hup
  have hrx' : (s.afterInit value).rxState = .awaitSync := by simpa [State.afterInit] using hrx
  have hwaiting : (s.afterInit value).farEnd.sent = wire s.farEnd.echoPackets := by
    rw [afterInit_farEnd hferx htaken]
    change (feCmdInit (BitVec.ofNat 16 value) s.farEnd).sent = _
    rw [feCmdInit_sent_wire, hsent, List.nil_append]
  have hback := opLineToUnit_wire hup' hrx' hwaiting
  rw [length_echoPackets, hup', hrx'] at hback
  rw [performAll_cons, perform, opSend_of_linkUp value 7 0 hup, andThen_next, performAll_cons, perform,
    andThen_next, performAll_singleton]
  exact hback

/-- Settles O54: the DIM acts on the frame sent as *Initialize*, and the unit receives the Packets of its
echo, one for each DAC channel. -/
theorem initializeRoundTripFillsTheTable : Obligations.InitializeRoundTripFillsTheTable := by
  intro value s hup hrx hferx htaken hsent
  obtain ⟨-, -, hcurrent, htarget, -⟩ := receivedAll_frame (s.afterInit value) s.farEnd.echoPackets
  have hdata : ∀ p ∈ s.farEnd.echoPackets, p.channel ≠ cmdAddr := fun p hp =>
    let ⟨a, ha⟩ := toDac_of_mem_echoPackets hp
    ha ▸ dacChannel_ne_cmdAddr a
  have hevents := receivedAll_events hdata (s.afterInit value)
  have hecho : (s.afterInit value).events = _ := State.sendFrame_events s (maskFields value 7 0)
  rw [hecho, List.append_assoc] at hevents
  refine ⟨_, performAll_initRoundTrip hup hrx hferx htaken hsent value, fun a => ?_, fun a => ?_, ?_, ?_,
    rfl, _, hevents, ?_, ?_⟩
  · refine tblAt_receivedAll (dacChannel_ne_cmdAddr a) ?_ (fun p hp ha => echoPackets_value hp ha) _
    exact (echoPackets_channels_perm s.farEnd).mem_iff.mpr (List.mem_map_of_mem (mem_dacs a))
  · rw [afterInit_farEnd hferx htaken]
    exact reg_feCmdInit (BitVec.ofNat 16 value) s.farEnd a
  · exact hcurrent.trans (State.sendFrame_current s _)
  · exact htarget.trans (State.sendFrame_target s _)
  · simp [length_echoPackets]
  · simp

end Sys2Proof.Machine
end
